-- ==== Sys2Proof/Word.lean ====
section
/-! DEFINITION. The widths of the values the hardware handles: 8-bit bytes, 16-bit words, and the two operand
widths of an instruction word narrower than a byte or a word (spec 00_scope.md R5, section 7; 30_encoding.md R81).
Every value is unsigned (42_alu.md R163). -/

namespace Sys2Proof

/-- A general register, a timer, a memory cell, an immediate `kk` (00_scope.md R5: REG_WIDTH, TIMER_WIDTH). -/
abbrev Byte := BitVec 8

/-- An instruction word, I, PC, a call-stack slot (00_scope.md R5: I_WIDTH, PC_WIDTH). -/
abbrev Word := BitVec 16

/-- A register index `x`, `y` or the sprite height `n`: one nibble of the word (30_encoding.md R81). -/
abbrev Nibble := BitVec 4

/-- The 12-bit absolute address field `nnn` (30_encoding.md R81, R83). -/
abbrev Addr := BitVec 12

/-- The index of VF, the register that doubles as the flag (10_state.md R21). -/
abbrev flagReg : Nibble := 15#4

end Sys2Proof
end

