-- ==== Sys2Proof/Syntax.lean ====
section
/-! DEFINITION. The 34 instructions of spec/opcode_table.json (30_encoding.md R85), one constructor per row in the
table's order, and the seven commands the host may issue (00_scope.md R9). -/

namespace Sys2Proof

/-- The instructions, in the order of the rows of 30_encoding.md R85. Operands: `x`, `y` register indices, `kk` an
8-bit immediate, `nnn` a 12-bit absolute address, `n` a sprite height (R81, R83). -/
inductive Instr where
  /-- Row 1, 00E0: CLS. -/
  | cls
  /-- Row 2, 00EE: RET. -/
  | ret
  /-- Row 3, 1nnn: JP nnn. -/
  | jp (nnn : Addr)
  /-- Row 4, 2nnn: CALL nnn. -/
  | call (nnn : Addr)
  /-- Row 5, 3xkk: SE Vx,kk. -/
  | seImm (x : Nibble) (kk : Byte)
  /-- Row 6, 4xkk: SNE Vx,kk. -/
  | sneImm (x : Nibble) (kk : Byte)
  /-- Row 7, 5xy0: SE Vx,Vy. -/
  | seReg (x y : Nibble)
  /-- Row 8, 6xkk: LD Vx,kk. -/
  | ldImm (x : Nibble) (kk : Byte)
  /-- Row 9, 7xkk: ADD Vx,kk. -/
  | addImm (x : Nibble) (kk : Byte)
  /-- Row 10, 8xy0: LD Vx,Vy. -/
  | ldReg (x y : Nibble)
  /-- Row 11, 8xy1: OR Vx,Vy. -/
  | orReg (x y : Nibble)
  /-- Row 12, 8xy2: AND Vx,Vy. -/
  | andReg (x y : Nibble)
  /-- Row 13, 8xy3: XOR Vx,Vy. -/
  | xorReg (x y : Nibble)
  /-- Row 14, 8xy4: ADD Vx,Vy. -/
  | addReg (x y : Nibble)
  /-- Row 15, 8xy5: SUB Vx,Vy. -/
  | subReg (x y : Nibble)
  /-- Row 16, 8xy6: SHR Vx,Vy. -/
  | shrReg (x y : Nibble)
  /-- Row 17, 8xy7: SUBN Vx,Vy. -/
  | subnReg (x y : Nibble)
  /-- Row 18, 8xyE: SHL Vx,Vy. -/
  | shlReg (x y : Nibble)
  /-- Row 19, 9xy0: SNE Vx,Vy. -/
  | sneReg (x y : Nibble)
  /-- Row 20, Annn: LD I,nnn. -/
  | ldI (nnn : Addr)
  /-- Row 21, Bnnn: JP V0,nnn. -/
  | jpV0 (nnn : Addr)
  /-- Row 22, Cxkk: RND Vx,kk. -/
  | rnd (x : Nibble) (kk : Byte)
  /-- Row 23, Dxyn: DRW Vx,Vy,n. -/
  | drw (x y n : Nibble)
  /-- Row 24, Ex9E: SKP Vx. -/
  | skp (x : Nibble)
  /-- Row 25, ExA1: SKNP Vx. -/
  | sknp (x : Nibble)
  /-- Row 26, Fx07: LD Vx,DT. -/
  | ldRegDt (x : Nibble)
  /-- Row 27, Fx0A: LD Vx,K. -/
  | ldRegKey (x : Nibble)
  /-- Row 28, Fx15: LD DT,Vx. -/
  | ldDtReg (x : Nibble)
  /-- Row 29, Fx18: LD ST,Vx. -/
  | ldStReg (x : Nibble)
  /-- Row 30, Fx1E: ADD I,Vx. -/
  | addI (x : Nibble)
  /-- Row 31, Fx29: LD F,Vx. -/
  | ldFont (x : Nibble)
  /-- Row 32, Fx33: LD B,Vx. -/
  | ldBcd (x : Nibble)
  /-- Row 33, Fx55: LD [I],Vx. -/
  | storeRegs (x : Nibble)
  /-- Row 34, Fx65: LD Vx,[I]. -/
  | loadRegs (x : Nibble)
  deriving DecidableEq, Repr

/-- The commands of the host, each one atomic transition (00_scope.md R8, R9). A key code is one of the sixteen the
interface has, so a press or release of any other code cannot be written down: it has no move (45_keypad_timers.md
R222, 93_implementation_defined.md U8; log entry 27). -/
inductive Command where
  /-- POWER_ON: every state element all zero (70_reset_and_hazards.md R280). -/
  | powerOn
  /-- RESET (R281). -/
  | reset
  /-- LOAD(image): an image of at most 3584 bytes (R282). -/
  | load (image : List Byte)
  /-- ITICK: one fetch-decode-execute cycle (40_tick_cycle.md R110). -/
  | itick
  /-- TTICK: step both timers (45_keypad_timers.md R233). -/
  | ttick
  /-- KEY_PRESS(k) (R221). -/
  | keyPress (k : Fin 16)
  /-- KEY_RELEASE(k) (R222). -/
  | keyRelease (k : Fin 16)
  deriving DecidableEq, Repr

end Sys2Proof
end

