-- ==== Sys2Proof/Decode.lean ====
section
/-! DEFINITION. The decoder, written from the opcode map of 30_encoding.md R85 by the word's nibbles; the encoder, written
from the bit patterns of R82; and the map itself as rows of match and mask, for claims about the two. The match values of all rows but 6xkk and 7xkk are the spec's from
general knowledge (decision D1; log entry 1); exact matching of the fixed nibbles is decision D2 (log entry 2). -/

namespace Sys2Proof

/-- Field op, bits 15:12 (30_encoding.md R81). -/
def opField (w : Word) : Nibble := w.extractLsb' 12 4

/-- Field x, bits 11:8. -/
def xField (w : Word) : Nibble := w.extractLsb' 8 4

/-- Field y, bits 7:4. -/
def yField (w : Word) : Nibble := w.extractLsb' 4 4

/-- Field n, bits 3:0. -/
def nField (w : Word) : Nibble := w.extractLsb' 0 4

/-- Field kk, bits 7:0. -/
def kkField (w : Word) : Byte := w.extractLsb' 0 8

/-- Field nnn, bits 11:0. -/
def nnnField (w : Word) : Addr := w.extractLsb' 0 12

/-- What a word decodes to: "exactly one instruction with its operands or to Unknown(w)" (30_encoding.md R84). -/
inductive Decoded where
  | instr (i : Instr)
  | unknown (w : Word)
  deriving DecidableEq, Repr

/-- Family 0: the two words 00E0 and 00EE; every other 0nnn is unknown (30_encoding.md R87). -/
def decodeFamilyZero (w : Word) : Decoded :=
  if w = 0x00E0#16 then .instr .cls
  else if w = 0x00EE#16 then .instr .ret
  else .unknown w

/-- Families 5 and 9: a two-register form whose low nibble must be 0 (30_encoding.md R85, R87). -/
def decodeLowZero (mk : Nibble → Nibble → Instr) (w : Word) : Decoded :=
  if nField w = 0x0#4 then .instr (mk (xField w) (yField w)) else .unknown w

/-- Family 8, by its low nibble (30_encoding.md R85 rows 10 to 18). -/
def decodeFamilyEight (w : Word) : Decoded :=
  match (nField w).toNat with
  | 0x0 => .instr (.ldReg (xField w) (yField w))
  | 0x1 => .instr (.orReg (xField w) (yField w))
  | 0x2 => .instr (.andReg (xField w) (yField w))
  | 0x3 => .instr (.xorReg (xField w) (yField w))
  | 0x4 => .instr (.addReg (xField w) (yField w))
  | 0x5 => .instr (.subReg (xField w) (yField w))
  | 0x6 => .instr (.shrReg (xField w) (yField w))
  | 0x7 => .instr (.subnReg (xField w) (yField w))
  | 0xE => .instr (.shlReg (xField w) (yField w))
  | _ => .unknown w

/-- Family E, by its low byte (30_encoding.md R85 rows 24, 25). -/
def decodeFamilyE (w : Word) : Decoded :=
  match (kkField w).toNat with
  | 0x9E => .instr (.skp (xField w))
  | 0xA1 => .instr (.sknp (xField w))
  | _ => .unknown w

/-- Family F, by its low byte (30_encoding.md R85 rows 26 to 34). -/
def decodeFamilyF (w : Word) : Decoded :=
  match (kkField w).toNat with
  | 0x07 => .instr (.ldRegDt (xField w))
  | 0x0A => .instr (.ldRegKey (xField w))
  | 0x15 => .instr (.ldDtReg (xField w))
  | 0x18 => .instr (.ldStReg (xField w))
  | 0x1E => .instr (.addI (xField w))
  | 0x29 => .instr (.ldFont (xField w))
  | 0x33 => .instr (.ldBcd (xField w))
  | 0x55 => .instr (.storeRegs (xField w))
  | 0x65 => .instr (.loadRegs (xField w))
  | _ => .unknown w

/-- The decoder, total on all 65536 words: by the high nibble, then by whatever fixed nibbles the family has
(30_encoding.md R84, R85, 40_tick_cycle.md R113). -/
def decode (w : Word) : Decoded :=
  match (opField w).toNat with
  | 0x0 => decodeFamilyZero w
  | 0x1 => .instr (.jp (nnnField w))
  | 0x2 => .instr (.call (nnnField w))
  | 0x3 => .instr (.seImm (xField w) (kkField w))
  | 0x4 => .instr (.sneImm (xField w) (kkField w))
  | 0x5 => decodeLowZero .seReg w
  | 0x6 => .instr (.ldImm (xField w) (kkField w))
  | 0x7 => .instr (.addImm (xField w) (kkField w))
  | 0x8 => decodeFamilyEight w
  | 0x9 => decodeLowZero .sneReg w
  | 0xA => .instr (.ldI (nnnField w))
  | 0xB => .instr (.jpV0 (nnnField w))
  | 0xC => .instr (.rnd (xField w) (kkField w))
  | 0xD => .instr (.drw (xField w) (yField w) (nField w))
  | 0xE => decodeFamilyE w
  | 0xF => decodeFamilyF w
  | _ => .unknown w

/-- The word whose byte at the lower address is `hi` (20_memory.md R53: big-endian). -/
def wordOfBytes (hi lo : Byte) : Word := hi ++ lo

/-- The byte of a word that stands at the lower address (20_memory.md R53). -/
def highByte (w : Word) : Byte := w.extractLsb' 8 8

/-- The byte of a word that stands at the higher address. -/
def lowByte (w : Word) : Byte := w.extractLsb' 0 8

/-- The decoder on bytes in address order: the first word's meaning and the bytes left. A single byte is no word: one
length, two bytes (30_encoding.md R80). -/
def decodeBytes : List Byte → Option (Decoded × List Byte)
  | hi :: lo :: rest => some (decode (wordOfBytes hi lo), rest)
  | [_] | [] => none

/-- Format NNN: op, nnn (30_encoding.md R82). -/
def wordNnn (op : Nibble) (nnn : Addr) : Word := op ++ nnn

/-- Formats XKK and X: op, x, low byte. -/
def wordXkk (op x : Nibble) (kk : Byte) : Word := op ++ x ++ kk

/-- Formats XY and XYN: op, x, y, low nibble. -/
def wordXyn (op x y n : Nibble) : Word := op ++ x ++ y ++ n

/-- The word of an instruction, from the bit patterns of 30_encoding.md R82 and the match values of R85. -/
def encode : Instr → Word
  | .cls => 0x00E0#16
  | .ret => 0x00EE#16
  | .jp nnn => wordNnn 0x1#4 nnn
  | .call nnn => wordNnn 0x2#4 nnn
  | .seImm x kk => wordXkk 0x3#4 x kk
  | .sneImm x kk => wordXkk 0x4#4 x kk
  | .seReg x y => wordXyn 0x5#4 x y 0x0#4
  | .ldImm x kk => wordXkk 0x6#4 x kk
  | .addImm x kk => wordXkk 0x7#4 x kk
  | .ldReg x y => wordXyn 0x8#4 x y 0x0#4
  | .orReg x y => wordXyn 0x8#4 x y 0x1#4
  | .andReg x y => wordXyn 0x8#4 x y 0x2#4
  | .xorReg x y => wordXyn 0x8#4 x y 0x3#4
  | .addReg x y => wordXyn 0x8#4 x y 0x4#4
  | .subReg x y => wordXyn 0x8#4 x y 0x5#4
  | .shrReg x y => wordXyn 0x8#4 x y 0x6#4
  | .subnReg x y => wordXyn 0x8#4 x y 0x7#4
  | .shlReg x y => wordXyn 0x8#4 x y 0xE#4
  | .sneReg x y => wordXyn 0x9#4 x y 0x0#4
  | .ldI nnn => wordNnn 0xA#4 nnn
  | .jpV0 nnn => wordNnn 0xB#4 nnn
  | .rnd x kk => wordXkk 0xC#4 x kk
  | .drw x y n => wordXyn 0xD#4 x y n
  | .skp x => wordXkk 0xE#4 x 0x9E#8
  | .sknp x => wordXkk 0xE#4 x 0xA1#8
  | .ldRegDt x => wordXkk 0xF#4 x 0x07#8
  | .ldRegKey x => wordXkk 0xF#4 x 0x0A#8
  | .ldDtReg x => wordXkk 0xF#4 x 0x15#8
  | .ldStReg x => wordXkk 0xF#4 x 0x18#8
  | .addI x => wordXkk 0xF#4 x 0x1E#8
  | .ldFont x => wordXkk 0xF#4 x 0x29#8
  | .ldBcd x => wordXkk 0xF#4 x 0x33#8
  | .storeRegs x => wordXkk 0xF#4 x 0x55#8
  | .loadRegs x => wordXkk 0xF#4 x 0x65#8

/-- A row of the opcode map: it matches w when `w &&& mask = pattern` (30_encoding.md R84). -/
structure OpcodeRow where
  mask    : Word
  pattern : Word
  deriving DecidableEq, Repr

/-- Row r matches w (30_encoding.md R84). -/
abbrev OpcodeRow.admits (r : OpcodeRow) (w : Word) : Prop := w &&& r.mask = r.pattern

/-- The row of an instruction in the opcode map, match and mask as printed (30_encoding.md R85). -/
def Instr.row : Instr → OpcodeRow
  | .cls => ⟨0xFFFF#16, 0x00E0#16⟩
  | .ret => ⟨0xFFFF#16, 0x00EE#16⟩
  | .jp _ => ⟨0xF000#16, 0x1000#16⟩
  | .call _ => ⟨0xF000#16, 0x2000#16⟩
  | .seImm _ _ => ⟨0xF000#16, 0x3000#16⟩
  | .sneImm _ _ => ⟨0xF000#16, 0x4000#16⟩
  | .seReg _ _ => ⟨0xF00F#16, 0x5000#16⟩
  | .ldImm _ _ => ⟨0xF000#16, 0x6000#16⟩
  | .addImm _ _ => ⟨0xF000#16, 0x7000#16⟩
  | .ldReg _ _ => ⟨0xF00F#16, 0x8000#16⟩
  | .orReg _ _ => ⟨0xF00F#16, 0x8001#16⟩
  | .andReg _ _ => ⟨0xF00F#16, 0x8002#16⟩
  | .xorReg _ _ => ⟨0xF00F#16, 0x8003#16⟩
  | .addReg _ _ => ⟨0xF00F#16, 0x8004#16⟩
  | .subReg _ _ => ⟨0xF00F#16, 0x8005#16⟩
  | .shrReg _ _ => ⟨0xF00F#16, 0x8006#16⟩
  | .subnReg _ _ => ⟨0xF00F#16, 0x8007#16⟩
  | .shlReg _ _ => ⟨0xF00F#16, 0x800E#16⟩
  | .sneReg _ _ => ⟨0xF00F#16, 0x9000#16⟩
  | .ldI _ => ⟨0xF000#16, 0xA000#16⟩
  | .jpV0 _ => ⟨0xF000#16, 0xB000#16⟩
  | .rnd _ _ => ⟨0xF000#16, 0xC000#16⟩
  | .drw _ _ _ => ⟨0xF000#16, 0xD000#16⟩
  | .skp _ => ⟨0xF0FF#16, 0xE09E#16⟩
  | .sknp _ => ⟨0xF0FF#16, 0xE0A1#16⟩
  | .ldRegDt _ => ⟨0xF0FF#16, 0xF007#16⟩
  | .ldRegKey _ => ⟨0xF0FF#16, 0xF00A#16⟩
  | .ldDtReg _ => ⟨0xF0FF#16, 0xF015#16⟩
  | .ldStReg _ => ⟨0xF0FF#16, 0xF018#16⟩
  | .addI _ => ⟨0xF0FF#16, 0xF01E#16⟩
  | .ldFont _ => ⟨0xF0FF#16, 0xF029#16⟩
  | .ldBcd _ => ⟨0xF0FF#16, 0xF033#16⟩
  | .storeRegs _ => ⟨0xF0FF#16, 0xF055#16⟩
  | .loadRegs _ => ⟨0xF0FF#16, 0xF065#16⟩

/-- Rows 1 to 9 of the opcode map (30_encoding.md R85). -/
def rowsOneToNine : List OpcodeRow :=
  [⟨0xFFFF#16, 0x00E0#16⟩, ⟨0xFFFF#16, 0x00EE#16⟩, ⟨0xF000#16, 0x1000#16⟩, ⟨0xF000#16, 0x2000#16⟩,
   ⟨0xF000#16, 0x3000#16⟩, ⟨0xF000#16, 0x4000#16⟩, ⟨0xF00F#16, 0x5000#16⟩, ⟨0xF000#16, 0x6000#16⟩,
   ⟨0xF000#16, 0x7000#16⟩]

/-- Rows 10 to 18. -/
def rowsFamilyEight : List OpcodeRow :=
  [⟨0xF00F#16, 0x8000#16⟩, ⟨0xF00F#16, 0x8001#16⟩, ⟨0xF00F#16, 0x8002#16⟩, ⟨0xF00F#16, 0x8003#16⟩,
   ⟨0xF00F#16, 0x8004#16⟩, ⟨0xF00F#16, 0x8005#16⟩, ⟨0xF00F#16, 0x8006#16⟩, ⟨0xF00F#16, 0x8007#16⟩,
   ⟨0xF00F#16, 0x800E#16⟩]

/-- Rows 19 to 25. -/
def rowsNineToE : List OpcodeRow :=
  [⟨0xF00F#16, 0x9000#16⟩, ⟨0xF000#16, 0xA000#16⟩, ⟨0xF000#16, 0xB000#16⟩, ⟨0xF000#16, 0xC000#16⟩,
   ⟨0xF000#16, 0xD000#16⟩, ⟨0xF0FF#16, 0xE09E#16⟩, ⟨0xF0FF#16, 0xE0A1#16⟩]

/-- Rows 26 to 34. -/
def rowsFamilyF : List OpcodeRow :=
  [⟨0xF0FF#16, 0xF007#16⟩, ⟨0xF0FF#16, 0xF00A#16⟩, ⟨0xF0FF#16, 0xF015#16⟩, ⟨0xF0FF#16, 0xF018#16⟩,
   ⟨0xF0FF#16, 0xF01E#16⟩, ⟨0xF0FF#16, 0xF029#16⟩, ⟨0xF0FF#16, 0xF033#16⟩, ⟨0xF0FF#16, 0xF055#16⟩,
   ⟨0xF0FF#16, 0xF065#16⟩]

/-- The opcode map, 34 rows (30_encoding.md R85). -/
def opcodeMap : List OpcodeRow := rowsOneToNine ++ rowsFamilyEight ++ rowsNineToE ++ rowsFamilyF

/-- The two bytes of an instruction in address order (30_encoding.md R80: high byte at the lower address). -/
def encodeBytes (i : Instr) : List Byte := [highByte (encode i), lowByte (encode i)]

/-- The instruction in a decoder's answer, if it gave one. -/
def Decoded.instr? : Decoded → Option Instr
  | .instr i => some i
  | .unknown _ => none

/-- The word whose bits are the low `nbits` of `w` and zeros above, as spec/opcode_table.json numbers them. -/
def tableWord (nbits w : Nat) : Word := BitVec.ofNat 16 (w % 2 ^ nbits)

/-- What the decoder reads from an instruction laid out in memory, given as the opcode table numbers its bits. -/
def decodeTableWord (nbits w : Nat) : Option Instr :=
  match decodeBytes [highByte (tableWord nbits w), lowByte (tableWord nbits w)] with
  | some (d, _) => d.instr?
  | none => none

end Sys2Proof
end

