-- ==== Sys2Proof/Config.lean ====
section
/-! DEFINITION. What is fixed for the machine: the sizes of 00_scope.md R5, the types of the open parameters of R6
(their defaults stand in Sys2Proof/Machine/Params.lean; a state carries the values it runs with), and the one free value,
the host's random byte (R11). -/

namespace Sys2Proof

/-- MEM_SIZE: bytes of main memory (00_scope.md R5). -/
abbrev Config.memSize : Nat := 4096

/-- FONT_BYTES: the font fills addresses 0x000 to 0x04F (00_scope.md R5). -/
abbrev Config.fontBytes : Nat := 80

/-- PROG_ORIGIN: where images are loaded and where execution starts (00_scope.md R5). -/
abbrev Config.progOrigin : Nat := 0x200

/-- MAX_IMAGE: the largest image, 4096 minus 0x200 bytes (00_scope.md R5). -/
abbrev Config.maxImage : Nat := 3584

/-- SHIFT_SRC: which register SHR and SHL shift (00_scope.md R6, decision D3). -/
inductive ShiftSrc where
  | vy
  | vx
  deriving DecidableEq, Repr

/-- FLAG_ORDER: which of the two writes of SHR and SHL lands last (00_scope.md R6, decision D4). -/
inductive FlagOrder where
  | flagLast
  | resultLast
  deriving DecidableEq, Repr

/-- STACK_DEPTH_LIMIT: how many nested calls are legal (00_scope.md R6, decision D7). -/
inductive StackDepth where
  | sixteen
  | fifteen
  deriving DecidableEq, Repr

/-- The number of usable stack slots. -/
def StackDepth.slots : StackDepth → Nat
  | .sixteen => 16
  | .fifteen => 15

/-- Neither choice uses more than the sixteen slots there are. -/
theorem StackDepth.slots_le (d : StackDepth) : d.slots ≤ 16 := by cases d <;> decide

/-- FONT: any 80 bytes (00_scope.md R6, decision D6). -/
abbrev Font : Type := Vector Byte Config.fontBytes

/-- KEY_OOR: what SKP and SKNP make of a key code above 15 (00_scope.md R6, decision D11). -/
inductive KeyOor where
  | fault
  | mask
  | notPressed
  deriving DecidableEq, Repr

/-- The open parameters of 00_scope.md R6, as one record a claim can name. RandomByte is the opaque constant below. -/
structure Params where
  font            : Font
  shiftSrc        : ShiftSrc
  flagOrder       : FlagOrder
  spriteMsbLeft   : Bool
  stackDepthLimit : StackDepth
  keyOor          : KeyOor
  deriving DecidableEq, Repr

/-- RandomByte (00_scope.md R11, 40_tick_cycle.md R118): the byte of the host's stream that the n-th executed RND
consumes. A FREE VALUE: it has no body, so nothing can be proved of any byte of it (log entry 18). Safe: every stream
is admitted. -/
opaque Config.randomByte : Nat → Byte

end Sys2Proof
end

