-- ==== Sys2Proof/Machine/Params.lean ====
section
/-! DEFINITION. The defaults of the open parameters of 00_scope.md R6. State.reset carries them; every definition that
depends on a parameter reads it from the state's record, so that a claim can name any other value. -/

namespace Sys2Proof.Machine

/-- The glyphs of digits 0 to 3, top row first (10_state.md R33). -/
def fontZeroToThree : List Byte :=
  [0xF0#8, 0x90#8, 0x90#8, 0x90#8, 0xF0#8,
   0x20#8, 0x60#8, 0x20#8, 0x20#8, 0x70#8,
   0xF0#8, 0x10#8, 0xF0#8, 0x80#8, 0xF0#8,
   0xF0#8, 0x10#8, 0xF0#8, 0x10#8, 0xF0#8]

/-- The glyphs of digits 4 to 7. -/
def fontFourToSeven : List Byte :=
  [0x90#8, 0x90#8, 0xF0#8, 0x10#8, 0x10#8,
   0xF0#8, 0x80#8, 0xF0#8, 0x10#8, 0xF0#8,
   0xF0#8, 0x80#8, 0xF0#8, 0x90#8, 0xF0#8,
   0xF0#8, 0x10#8, 0x20#8, 0x40#8, 0x40#8]

/-- The glyphs of digits 8 to B. -/
def fontEightToB : List Byte :=
  [0xF0#8, 0x90#8, 0xF0#8, 0x90#8, 0xF0#8,
   0xF0#8, 0x90#8, 0xF0#8, 0x10#8, 0xF0#8,
   0xF0#8, 0x90#8, 0xF0#8, 0x90#8, 0x90#8,
   0xE0#8, 0x90#8, 0xE0#8, 0x90#8, 0xE0#8]

/-- The glyphs of digits C to F. -/
def fontCToF : List Byte :=
  [0xF0#8, 0x80#8, 0x80#8, 0x80#8, 0xF0#8,
   0xE0#8, 0x90#8, 0x90#8, 0x90#8, 0xE0#8,
   0xF0#8, 0x80#8, 0xF0#8, 0x80#8, 0xF0#8,
   0xF0#8, 0x80#8, 0xF0#8, 0x80#8, 0x80#8]

/-- The default FONT, the conventional table of this architecture (10_state.md R33, decision D6; log entry 6). -/
def defaultFont : Font := ⟨⟨fontZeroToThree ++ fontFourToSeven ++ fontEightToB ++ fontCToF⟩, rfl⟩

/-- The defaults of 00_scope.md R6 (decisions D3, D4, D5, D6, D7, D11; log entries 3, 4, 5, 6, 7, 11). -/
def params : Params :=
  { font := defaultFont
    shiftSrc := .vy
    flagOrder := .flagLast
    spriteMsbLeft := true
    stackDepthLimit := .sixteen
    keyOor := .fault }

end Sys2Proof.Machine
end

