-- ==== Sys2Proof/Machine/State.lean ====
section
/-! DEFINITION. The state of the CHIP-8 interpreter core as plain data (10_state.md), with the five fields of the
model's own that it needs to be run as one deterministic step (log entries 8, 17, 18, 19, 25); the reasons a step can stop;
and the state after reset (R37). -/

namespace Sys2Proof.Machine

/-- Main memory as the cells that differ from what an unlisted address reads as, in rising order (10_state.md R31;
log entry 21). -/
abbrev Memory := List Host.Cell

/-- The framebuffer: 32 rows of 64 one-bit pixels, bit `col` of row `row` being FB[row][col] (10_state.md R32,
44_display.md R200; log entry 22). -/
abbrev Screen := Vector (BitVec 64) 32

/-- The status WAIT (10_state.md R34). -/
inductive WaitStatus where
  | running
  | awaitingKey (r : Nibble)
  deriving DecidableEq, Repr

/-- The space an AddressError names (60_exceptions.md R250). -/
inductive Space where
  | fetch
  | data
  | key
  deriving DecidableEq, Repr

/-- The kind of a StackError (60_exceptions.md R250). -/
inductive StackKind where
  | overflow
  | underflow
  deriving DecidableEq, Repr

/-- The two exceptions that are errors, with what each reports (60_exceptions.md R250, R252, R253). -/
inductive TickError where
  /-- AddressError(space, addr): the lowest offending address, or the key code. -/
  | address (space : Space) (addr : Nat)
  /-- StackError(kind). -/
  | stack (kind : StackKind)
  deriving DecidableEq, Repr

/-- The result an ITICK returns to the host: Done, UnknownOpcode(w), AddressError or StackError (40_tick_cycle.md R116). -/
inductive TickResult where
  | done
  | unknownOpcode (w : Word)
  | error (e : TickError)
  deriving DecidableEq, Repr

/-- The machine. The first eleven fields are the tuple of 10_state.md; R36 says there is no other state. The last five
are the model's own: what the host will command next, how many random bytes it has supplied, what the last ITICK
returned, the fault mark that 60_exceptions.md R258 advises, and the parameters this machine runs with. -/
structure State where
  /-- V[0] to V[15] (R20). -/
  v : Vector Byte 16
  /-- The index register I (R26). -/
  i : Word
  /-- The program counter (R23). -/
  pc : Word
  /-- The sixteen call-stack slots (R27). -/
  stack : Vector Word 16
  /-- The stack pointer, a count 0 to 16 (R28). -/
  sp : Fin 17
  /-- The delay timer (R29). -/
  dt : Byte
  /-- The sound timer (R30). -/
  st : Byte
  /-- Main memory (R31). -/
  mem : Memory
  /-- The framebuffer (R32). -/
  fb : Screen
  /-- The keypad register: KEY[k] holds while key k is held (R32, 45_keypad_timers.md R220). -/
  key : Vector Bool 16
  /-- The wait status (R34). -/
  wait : WaitStatus
  /-- MODEL'S OWN: the commands the host has yet to issue, oldest first; with none left it issues ITICK (log entry 19). -/
  schedule : List Command
  /-- MODEL'S OWN: how many bytes of the free random stream have been consumed (40_tick_cycle.md R118; log entry 18). -/
  draws : Nat
  /-- MODEL'S OWN: the result of the last ITICK, which the host observes (00_scope.md R10; log entry 17). -/
  report : Option TickResult
  /-- MODEL'S OWN: set once an ITICK reports AddressError or StackError, never cleared (60_exceptions.md R258; log
  entry 8). -/
  errorMark : Bool
  /-- MODEL'S OWN: the values of the open parameters (00_scope.md R6), fixed for a machine: every rule that depends on one
  reads it here and no step writes it (log entry 25). -/
  config : Params
  deriving DecidableEq, Repr

/-- The faults of a step: there are none. Every exceptional condition of this hardware is reported to the host and the
machine goes on (60_exceptions.md R250, R257; log entry 24), so nobody raises a fault. Safe: nothing is hidden by
one. -/
inductive Fault : Type
  deriving DecidableEq, Repr

/-- The refusals of a step. -/
inductive Refusal where
  /-- Raised by an arm of `exec` whose instruction has no meaning yet. Safe: the machine stops. No arm raises it. -/
  | notModelled (mnemonic : String)
  /-- Raised by the host command LOAD with an image of more than 3584 bytes, which "a model gives ... no move"
  (70_reset_and_hazards.md R282, decision D16; log entry 16). Safe: the machine stops. -/
  | oversizedLoad (length : Nat)
  deriving DecidableEq, Repr

/-- The state after RESET under given parameters (10_state.md R37): everything zero, the screen clear, PC at the program origin, WAIT Running,
no memory cell differing from the reset contents (the font, zero elsewhere). No key is held, as when the host has
pressed none since power-on (70_reset_and_hazards.md R283; log entry 13). -/
def State.resetWith (p : Params) : State :=
  { v := Vector.replicate 16 0#8
    i := 0#16
    pc := 0x200#16
    stack := Vector.replicate 16 0#16
    sp := 0
    dt := 0#8
    st := 0#8
    mem := []
    fb := Vector.replicate 32 0#64
    key := Vector.replicate 16 false
    wait := .running
    schedule := []
    draws := 0
    report := none
    errorMark := false
    config := p }

/-- The state after RESET of the machine with the defaults of 00_scope.md R6. -/
def State.reset : State := State.resetWith params

end Sys2Proof.Machine
end

