-- ==== Sys2Proof/Machine/Ops.lean ====
section
/-! DEFINITION. The named operations over the state: registers, memory, the call stack, the report of an ITICK and the
taking of an exception, the fetch and the advance (20_memory.md, 41_flow.md R138, 40_tick_cycle.md R111, R112,
60_exceptions.md R257). -/

namespace Sys2Proof.Machine

/-! ## Registers -/

/-- V[x] (10_state.md R20). -/
def State.getV (s : State) (x : Nibble) : Byte := s.v[x.toNat]'x.isLt

/-- V[x] <- b. -/
def State.setV (s : State) (x : Nibble) (b : Byte) : State := { s with v := s.v.set x.toNat b x.isLt }

/-- I <- a (10_state.md R26). -/
def State.setI (s : State) (a : Word) : State := { s with i := a }

/-- PC <- a (10_state.md R23). -/
def State.setPc (s : State) (a : Word) : State := { s with pc := a }

/-- DT <- b (10_state.md R29). -/
def State.setDt (s : State) (b : Byte) : State := { s with dt := b }

/-- ST <- b (10_state.md R30). -/
def State.setSt (s : State) (b : Byte) : State := { s with st := b }

/-- FB <- a whole new framebuffer (10_state.md R32). -/
def State.setFb (s : State) (f : Screen) : State := { s with fb := f }

/-- KEY[k] <- b, the host's write (10_state.md R40). -/
def State.setKey (s : State) (k : Fin 16) (b : Bool) : State := { s with key := s.key.set k.val b k.isLt }

/-- WAIT <- w (40_tick_cycle.md R117). -/
def State.setWait (s : State) (w : WaitStatus) : State := { s with wait := w }

/-- MEM <- a whole new memory. -/
def State.setMem (s : State) (m : Memory) : State := { s with mem := m }

/-- The model's own: one more byte of the random stream is consumed (40_tick_cycle.md R118). -/
def State.countDraw (s : State) : State := { s with draws := s.draws + 1 }

/-! ## Memory -/

/-- What a cell that is not listed holds: the contents after RESET, that is FONT at 0x000 to 0x04F and zero elsewhere,
for any 80 bytes of FONT (10_state.md R33, R37, 20_memory.md R58; log entry 21). -/
def unlistedByte (f : Font) (a : Nat) : Byte := if h : a < Config.fontBytes then f[a] else 0#8

/-- MEM[a], without any check (00_scope.md section 7). -/
def readCell (f : Font) : Memory → Nat → Byte
  | [], a => unlistedByte f a
  | (c, b) :: rest, a => if a = c then b else readCell f rest a

/-- The cell (a, b), or nothing when b is what an unlisted address reads as. -/
def listedCell (f : Font) (a : Nat) (b : Byte) : Memory := if b = unlistedByte f a then [] else [(a, b)]

/-- MEM[a] <- b on the list, keeping it rising and free of entries equal to what an unlisted address reads as. -/
def insertCell (f : Font) : Memory → Nat → Byte → Memory
  | [], a, b => listedCell f a b
  | (c, d) :: rest, a, b =>
    if a < c then listedCell f a b ++ (c, d) :: rest
    else if a = c then listedCell f a b ++ rest
    else (c, d) :: insertCell f rest a b

/-- MEM[a] <- b; there is no cell at 4096 or above (10_state.md R31). -/
def writeCell (f : Font) (m : Memory) (a : Nat) (b : Byte) : Memory :=
  if a < Config.memSize then insertCell f m a b else m

/-- Bytes at ascending addresses from a (20_memory.md R54). -/
def writeCells (f : Font) : Memory → Nat → List Byte → Memory
  | m, _, [] => m
  | m, a, b :: bs => writeCells f (writeCell f m a b) (a + 1) bs

/-- The canonical form of memory: addresses strictly rising and below 4096, no entry equal to what an unlisted address
reads as. -/
def Memory.wf (f : Font) : Memory → Bool
  | [] => true
  | (a, b) :: rest =>
    decide (a < Config.memSize) && (b != unlistedByte f a) && rest.all (fun c => decide (a < c.1)) &&
      Memory.wf f rest

/-- MEM[a] of a state. -/
def State.readByte (s : State) (a : Nat) : Byte := readCell s.config.font s.mem a

/-- The n bytes from address a upward. -/
def State.readBytes (s : State) : Nat → Nat → List Byte
  | _, 0 => []
  | a, n + 1 => s.readByte a :: s.readBytes (a + 1) n

/-- Bytes stored at ascending addresses from a. -/
def State.writeBytes (s : State) (a : Nat) (bs : List Byte) : State := s.setMem (writeCells s.config.font s.mem a bs)

/-- The check of 20_memory.md R51, R52, R60 and 43_index_memory.md R186, on unbounded integers: an access of n bytes from
addr whose highest byte lies above 0xFFF is an AddressError that reports the lowest byte address outside memory. An
access of no byte is no access (44_display.md R208). -/
def accessError (space : Space) (addr n : Nat) : Option TickError :=
  if n ≠ 0 ∧ addr + n - 1 > 0xFFF then some (.address space (max addr 0x1000)) else none

/-- MemRead: the n bytes from addr, checked whole before any byte is read (20_memory.md R51, R60). -/
def memRead (s : State) (space : Space) (addr n : Nat) : Except TickError (List Byte) :=
  match accessError space addr n with
  | some e => .error e
  | none => .ok (s.readBytes addr n)

/-- MemWrite: bytes at ascending addresses from addr, checked whole before any byte is written (20_memory.md R52, R60). -/
def memWrite (s : State) (addr : Nat) (bs : List Byte) : Except TickError State :=
  match accessError .data addr bs.length with
  | some e => .error e
  | none => .ok (s.writeBytes addr bs)

/-! ## The call stack (41_flow.md R138) -/

/-- Push(v): write slot SP, then increment SP; StackError(Overflow) before any write when SP has reached
STACK_DEPTH_LIMIT (log entry 7). -/
def State.push (s : State) (a : Word) : Except TickError State :=
  if h : s.sp.val < s.config.stackDepthLimit.slots then
    have h16 : s.sp.val < 16 := Nat.lt_of_lt_of_le h s.config.stackDepthLimit.slots_le
    .ok { s with stack := s.stack.set s.sp.val a h16, sp := ⟨s.sp.val + 1, by omega⟩ }
  else .error (.stack .overflow)

/-- Pop(): decrement SP, then read slot SP; StackError(Underflow) when SP = 0. The popped slot keeps its content. -/
def State.pop (s : State) : Except TickError (Word × State) :=
  if h : s.sp.val = 0 then .error (.stack .underflow)
  else
    have h16 : s.sp.val - 1 < 16 := by omega
    .ok (s.stack[s.sp.val - 1], { s with sp := ⟨s.sp.val - 1, by omega⟩ })

/-! ## The report of an ITICK and the taking of an exception -/

/-- The ITICK returns Done (40_tick_cycle.md R116). -/
def State.complete (s : State) : State := { s with report := some .done }

/-- The ITICK returns UnknownOpcode(w): reported, not an error mark (40_tick_cycle.md R115, 60_exceptions.md R251). -/
def State.reportUnknown (s : State) (w : Word) : State := { s with report := some (.unknownOpcode w) }

/-- TAKING AN EXCEPTION: the ITICK returns AddressError or StackError. No register, memory cell, stack slot, timer,
pixel or key changes, there is no vector and nothing is saved; control goes on at the PC of the state given, which the
advance has already moved in the execute phase and has not in the fetch (60_exceptions.md R257, decision D8). The
report goes to the host and the fault mark of R258 is set (log entry 8). There is no return from it (R259). -/
def State.raise (s : State) (e : TickError) : State := { s with report := some (.error e), errorMark := true }

/-- The end of an instruction: its effect on the state `s` it began in, or the exception it raised, in which case "the
instruction performs none of its writes" (60_exceptions.md R257). -/
def conclude (s : State) (r : Except TickError State) : Host.Outcome State Fault Refusal :=
  match r with
  | .ok t => .next t.complete
  | .error e => .next (s.raise e)

/-! ## Fetch and advance -/

/-- Fetch: two bytes at PC as one big-endian word, or AddressError(FETCH, ..) (40_tick_cycle.md R111, 20_memory.md R53). -/
def State.fetch (s : State) : Except TickError Word :=
  match accessError .fetch s.pc.toNat 2 with
  | some e => .error e
  | none => .ok (wordOfBytes (s.readByte s.pc.toNat) (s.readByte (s.pc.toNat + 1)))

/-- Advance: PC <- PC + 2 and WAIT <- Running, after a successful fetch and before the instruction's own rule
(40_tick_cycle.md R110, R112, R117). PC arithmetic is modulo 65536 (10_state.md R25). -/
def State.advance (s : State) : State := { s with pc := s.pc + 2#16, wait := .running }

/-- Where the next ITICK fetches: PC, or the program origin when no word can be fetched at PC. -/
def State.placeAddr (s : State) : Nat := if s.pc.toNat ≤ 0xFFE then s.pc.toNat else Config.progOrigin

/-- The state with a word laid out, high byte first, where the next ITICK fetches it, PC on it and no host command before
that ITICK (log entry 23). -/
def State.placeWord (s : State) (w : Word) : State :=
  { s with
    mem := writeCells s.config.font s.mem s.placeAddr [highByte w, lowByte w]
    pc := BitVec.ofNat 16 s.placeAddr
    schedule := [] }

end Sys2Proof.Machine
end

