-- ==== Sys2Proof/Machine/Commands.lean ====
section
/-! DEFINITION. The host's commands other than ITICK (00_scope.md R9): POWER_ON, RESET, LOAD, TTICK, KEY_PRESS,
KEY_RELEASE. Each is one atomic transition (R8) and returns nothing, so the report of the last ITICK, the random stream,
the fault mark, the parameters and the rest of the host's schedule stay (log entries 8, 17, 25, 26). -/

namespace Sys2Proof.Machine

/-- The cells in which an all-zero memory differs from what unlisted addresses read as: a zero at each font address whose
reset content is not zero (10_state.md R38). -/
def zeroMemory (f : Font) : Memory := writeCells f [] 0 (List.replicate Config.fontBytes 0#8)

/-- The spec's state elements of `t` with the model's own fields of `s` (log entry 26). -/
def State.keepHost (t s : State) : State :=
  { t with
    schedule := s.schedule
    draws := s.draws
    report := s.report
    errorMark := s.errorMark
    config := s.config }

/-- POWER_ON (70_reset_and_hazards.md R280, 10_state.md R38): every state element 0, PC = 0, no key held, the font not yet
installed, WAIT = Running. -/
def State.powerOn (p : Params) : State := { State.resetWith p with pc := 0#16, mem := zeroMemory p.font }

/-- POWER_ON as a command. -/
def cmdPowerOn (s : State) : State := (State.powerOn s.config).keepHost s

/-- RESET (70_reset_and_hazards.md R281, 10_state.md R37): the reset values, KEY left as it is. -/
def cmdReset (s : State) : State := { (State.resetWith s.config).keepHost s with key := s.key }

/-- LOAD(image) (R282): the image verbatim from 0x200 upward and nothing else; longer than 3584 bytes it has no move (log
entry 16). -/
def cmdLoad (image : List Byte) (s : State) : Host.Outcome State Fault Refusal :=
  if image.length ≤ Config.maxImage then .next (s.writeBytes Config.progOrigin image)
  else .refused (.oversizedLoad image.length)

/-- A timer's step: saturating at 0 (45_keypad_timers.md R233). -/
def tickDown (b : Byte) : Byte := if b = 0#8 then 0#8 else b - 1#8

/-- TTICK (45_keypad_timers.md R233): both timers, nothing else. -/
def cmdTtick (s : State) : State := (s.setDt (tickDown s.dt)).setSt (tickDown s.st)

/-- KEY_PRESS(k) (45_keypad_timers.md R221). -/
def cmdKeyPress (k : Fin 16) (s : State) : State := s.setKey k true

/-- KEY_RELEASE(k) (R222). -/
def cmdKeyRelease (k : Fin 16) (s : State) : State := s.setKey k false

end Sys2Proof.Machine
end

