-- ==== Sys2Proof/Machine/Operands.lean ====
section
/-! DEFINITION. The operand forms: zero extension (30_encoding.md R83), the effective address I + k (43_index_memory.md
R186), the register blocks V[0] to V[x], the key query (45_keypad_timers.md R225), the sprite byte's bits (44_display.md
R206), the shifts' source (42_alu.md R158) and the font address (43_index_memory.md R182). -/

namespace Sys2Proof.Machine

/-- zext_16(nnn): a 12-bit absolute address (30_encoding.md R83). -/
def zextAddr (nnn : Addr) : Word := nnn.setWidth 16

/-- zext_16(b) of a register value (41_flow.md R133, 43_index_memory.md R181). -/
def zextByte (b : Byte) : Word := b.setWidth 16

/-- The base of a memory access, as the unbounded integer of the 16-bit I (20_memory.md R59, 43_index_memory.md R186). -/
def State.base (s : State) : Nat := s.i.toNat

/-- pc <- PC + 2 iff the condition holds, PC being the advanced value (41_flow.md R139). -/
def State.skipIf (s : State) (c : Bool) : State := if c then s.setPc (s.pc + 2#16) else s

/-- The values of V[k] to V[k + n - 1]. -/
def State.regBlock (s : State) : Nat → Nat → List Byte
  | _, 0 => []
  | k, n + 1 => s.getV (BitVec.ofNat 4 k) :: s.regBlock (k + 1) n

/-- Bytes written to V[k], V[k + 1], ... in order. -/
def State.setRegBlock : State → Nat → List Byte → State
  | s, _, [] => s
  | s, k, b :: bs => (s.setV (BitVec.ofNat 4 k) b).setRegBlock (k + 1) bs

/-- The register count of LD [I],Vx and LD Vx,[I]: V[0] to V[x] inclusive (43_index_memory.md R184, R185). -/
def blockCount (x : Nibble) : Nat := x.toNat + 1

/-- v div 100, (v div 10) mod 10, v mod 10 (43_index_memory.md R183). -/
def decimalDigits (b : Byte) : List Byte :=
  [BitVec.ofNat 8 (b.toNat / 100), BitVec.ofNat 8 (b.toNat / 10 % 10), BitVec.ofNat 8 (b.toNat % 10)]

/-- FONT_BASE + 5 * d, d being the low nibble (43_index_memory.md R182). -/
def fontAddr (b : Byte) : Word := BitVec.ofNat 16 (5 * (b.toNat % 16))

/-- The value SHR and SHL shift: V[y], or V[x] when SHIFT_SRC = VX (42_alu.md R158, R160, decision D3; log entry 3). -/
def shiftSource (s : State) (x y : Nibble) : Byte :=
  match s.config.shiftSrc with
  | .vy => s.getV y
  | .vx => s.getV x

/-- isPressed(k): KEY[k] = 1 (45_keypad_timers.md R220). -/
def State.isPressed (s : State) (k : Fin 16) : Bool := s.key[k.val]

/-- The key query of SKP and SKNP, with the whole 8-bit code: above 15 it is AddressError(KEY, code), or what KEY_OOR says
(45_keypad_timers.md R225, decision D11; log entry 11). -/
def keyQuery (s : State) (code : Byte) : Except TickError Bool :=
  if h : code.toNat < 16 then .ok (s.isPressed ⟨code.toNat, h⟩)
  else
    match s.config.keyOor with
    | .fault => .error (.address .key code.toNat)
    | .mask => .ok (s.isPressed ⟨code.toNat % 16, Nat.mod_lt _ (by decide)⟩)
    | .notPressed => .ok false

/-- The least pressed key among the first n codes counted from k, if any. -/
def State.leastKeyFrom (s : State) : Nat → Nat → Option (Fin 16)
  | _, 0 => none
  | k, n + 1 => if h : k < 16 then (if s.isPressed ⟨k, h⟩ then some ⟨k, h⟩ else s.leastKeyFrom (k + 1) n) else none

/-- The lowest-indexed pressed key, if any is held (45_keypad_timers.md R226). -/
def State.leastKey (s : State) : Option (Fin 16) := s.leastKeyFrom 0 16

/-- Sprite bit of column i of a sprite byte: bit 7 - i, or bit i when SPRITE_MSB_LEFT is false (44_display.md R206, decision
D5; log entry 5). -/
def spriteBit (p : Params) (b : Byte) (i : Nat) : Bool := if p.spriteMsbLeft then b.getLsbD (7 - i) else b.getLsbD i

end Sys2Proof.Machine
end

