-- ==== Sys2Proof/Machine/Flags.lean ====
section
/-! DEFINITION. What VF is set to: the flag computations of ADD, SUB, SUBN, SHR, SHL and DRW (10_state.md section 3), on
exact integers, and the order of the result write and the flag write (42_alu.md R162). -/

namespace Sys2Proof.Machine

/-- A flag as the byte VF holds: 0 or 1, never any other value (10_state.md R21). -/
def flagByte (f : Bool) : Byte := if f then 1#8 else 0#8

/-- ADD: the sum exceeds 255 (42_alu.md R156). -/
def carryOf (a b : Byte) : Bool := decide (a.toNat + b.toNat > 255)

/-- SUB a - b: no borrow, a >= b (42_alu.md R157; R159 with the operands exchanged). -/
def noBorrow (a b : Byte) : Bool := decide (a.toNat ≥ b.toNat)

/-- SHR: bit 0 of the source before the shift (42_alu.md R158). -/
def bitOutRight (b : Byte) : Bool := b.getLsbD 0

/-- SHL: bit 7 of the source before the shift (42_alu.md R160). -/
def bitOutLeft (b : Byte) : Bool := b.getLsbD 7

/-- VF <- flag. -/
def State.setFlag (s : State) (f : Bool) : State := s.setV flagReg (flagByte f)

/-- The result to V[x], then the flag to VF, last (42_alu.md R162). -/
def State.resultThenFlag (s : State) (x : Nibble) (r : Byte) (f : Bool) : State := (s.setV x r).setFlag f

/-- The two writes of SHR and SHL in the order FLAG_ORDER selects (42_alu.md R162, decision D4; log entry 4). -/
def State.shiftWrites (s : State) (x : Nibble) (r : Byte) (f : Bool) : State :=
  match s.config.flagOrder with
  | .flagLast => s.resultThenFlag x r f
  | .resultLast => (s.setFlag f).setV x r

end Sys2Proof.Machine
end

