-- ==== Sys2Proof/Machine/Alu.lean ====
section
/-! DEFINITION. Register load, arithmetic, logic, shift and random (42_alu.md). Bytes wrap modulo 256 (R163); both operands
are read before anything is written (R162). -/

namespace Sys2Proof.Machine

/-- LD Vx,kk (42_alu.md R150). -/
def execLdImm (x : Nibble) (kk : Byte) (s : State) : Host.Outcome State Fault Refusal :=
  conclude s (.ok (s.setV x kk))

/-- ADD Vx,kk (R151): no flag. -/
def execAddImm (x : Nibble) (kk : Byte) (s : State) : Host.Outcome State Fault Refusal :=
  conclude s (.ok (s.setV x (s.getV x + kk)))

/-- LD Vx,Vy (R152). -/
def execLdReg (x y : Nibble) (s : State) : Host.Outcome State Fault Refusal :=
  conclude s (.ok (s.setV x (s.getV y)))

/-- OR Vx,Vy (R153): VF is not cleared. -/
def execOrReg (x y : Nibble) (s : State) : Host.Outcome State Fault Refusal :=
  conclude s (.ok (s.setV x (s.getV x ||| s.getV y)))

/-- AND Vx,Vy (R154). -/
def execAndReg (x y : Nibble) (s : State) : Host.Outcome State Fault Refusal :=
  conclude s (.ok (s.setV x (s.getV x &&& s.getV y)))

/-- XOR Vx,Vy (R155). -/
def execXorReg (x y : Nibble) (s : State) : Host.Outcome State Fault Refusal :=
  conclude s (.ok (s.setV x (s.getV x ^^^ s.getV y)))

/-- ADD Vx,Vy (R156): VF is the carry, written last. -/
def execAddReg (x y : Nibble) (s : State) : Host.Outcome State Fault Refusal :=
  conclude s (.ok (s.resultThenFlag x (s.getV x + s.getV y) (carryOf (s.getV x) (s.getV y))))

/-- SUB Vx,Vy (R157): VF is the not-borrow of Vx - Vy. -/
def execSubReg (x y : Nibble) (s : State) : Host.Outcome State Fault Refusal :=
  conclude s (.ok (s.resultThenFlag x (s.getV x - s.getV y) (noBorrow (s.getV x) (s.getV y))))

/-- SUBN Vx,Vy (R159): VF is the not-borrow of Vy - Vx. -/
def execSubnReg (x y : Nibble) (s : State) : Host.Outcome State Fault Refusal :=
  conclude s (.ok (s.resultThenFlag x (s.getV y - s.getV x) (noBorrow (s.getV y) (s.getV x))))

/-- SHR Vx,Vy (R158): a logical shift by one. -/
def execShrReg (x y : Nibble) (s : State) : Host.Outcome State Fault Refusal :=
  conclude s (.ok (s.shiftWrites x (shiftSource s x y >>> 1) (bitOutRight (shiftSource s x y))))

/-- SHL Vx,Vy (R160): modulo 256. -/
def execShlReg (x y : Nibble) (s : State) : Host.Outcome State Fault Refusal :=
  conclude s (.ok (s.shiftWrites x (shiftSource s x y <<< 1) (bitOutLeft (shiftSource s x y))))

/-- RND with the byte the host supplied (R161). -/
def rndWith (r : Byte) (x : Nibble) (kk : Byte) (s : State) : Host.Outcome State Fault Refusal :=
  conclude s (.ok (s.setV x (r &&& kk)))

/-- RND Vx,kk (R161): the next byte of the free stream, one element consumed (40_tick_cycle.md R118; log entry 18). -/
def execRnd (x : Nibble) (kk : Byte) (s : State) : Host.Outcome State Fault Refusal :=
  rndWith (Config.randomByte s.draws) x kk s.countDraw

end Sys2Proof.Machine
end

