-- ==== Sys2Proof/Machine/Display.lean ====
section
/-! DEFINITION. The display sub-block: the framebuffer, the XOR sprite composer with its collision detector, and the
instructions CLS and DRW (44_display.md). -/

namespace Sys2Proof.Machine

/-- FB[row][col] (44_display.md R200). -/
def pixelAt (f : Screen) (row : Fin 32) (col : Fin 64) : Bool := f[row.val].getLsbD col.val

/-- FB[row][col] <- b. -/
def setPixel (f : Screen) (row : Fin 32) (col : Fin 64) (b : Bool) : Screen :=
  f.set row.val
    (if b then f[row.val] ||| BitVec.twoPow 64 col.val else f[row.val] &&& ~~~ BitVec.twoPow 64 col.val) row.isLt

/-- FB[row][col] of a state, what the host reads (00_scope.md R10). -/
def State.pixel (s : State) (row : Fin 32) (col : Fin 64) : Bool := pixelAt s.fb row col

/-- clear(): every pixel 0 (R201). -/
def clearScreen : Screen := Vector.replicate 32 0#64

/-- The pixel column of sprite column i: (cx + i) mod 64 (R205). -/
def wrapCol (cx i : Nat) : Fin 64 := ⟨(cx + i) % 64, Nat.mod_lt _ (by decide)⟩

/-- The pixel row of sprite row j: (cy + j) mod 32 (R205). -/
def wrapRow (cy j : Nat) : Fin 32 := ⟨(cy + j) % 32, Nat.mod_lt _ (by decide)⟩

/-- One sprite position: collision when sprite bit and old pixel are both 1 (R204), then the exclusive or (R203). -/
def drawPixel (row : Fin 32) (col : Fin 64) (bit : Bool) (acc : Screen × Bool) : Screen × Bool :=
  (setPixel acc.1 row col (xor (pixelAt acc.1 row col) bit), acc.2 || (bit && pixelAt acc.1 row col))

/-- Sprite columns i to i + k - 1 of one sprite byte (R202's inner loop). -/
def drawColumns (p : Params) (cx : Nat) (row : Fin 32) (b : Byte) : Nat → Nat → Screen × Bool → Screen × Bool
  | _, 0, acc => acc
  | i, k + 1, acc => drawColumns p cx row b (i + 1) k (drawPixel row (wrapCol cx i) (spriteBit p b i) acc)

/-- Sprite rows from j on (R202's outer loop). -/
def drawRows (p : Params) (cx cy : Nat) : Nat → List Byte → Screen × Bool → Screen × Bool
  | _, [], acc => acc
  | j, b :: bs, acc => drawRows p cx cy (j + 1) bs (drawColumns p cx (wrapRow cy j) b 0 8 acc)

/-- draw(x, y, spriteBytes): the new framebuffer and the collision bit (R210). -/
def drawSprite (p : Params) (f : Screen) (cx cy : Nat) (bytes : List Byte) : Screen × Bool :=
  drawRows p cx cy 0 bytes (f, false)

/-- CLS (R201). -/
def execCls (s : State) : Host.Outcome State Fault Refusal :=
  conclude s (.ok (s.setFb clearScreen))

/-- The effect of a draw whose bytes have been read: the composed framebuffer, then VF, last (R202). -/
def State.composed (s : State) (cx cy : Byte) (bytes : List Byte) : State :=
  (s.setFb (drawSprite s.config s.fb cx.toNat cy.toNat bytes).1).setFlag
    (drawSprite s.config s.fb cx.toNat cy.toNat bytes).2

/-- DRW Vx,Vy,n (R202): both coordinates read first; n = 0 reads nothing and clears VF (R208). -/
def execDrw (x y n : Nibble) (s : State) : Host.Outcome State Fault Refusal :=
  conclude s ((memRead s .data s.base n.toNat).map (fun bytes => s.composed (s.getV x) (s.getV y) bytes))

end Sys2Proof.Machine
end

