-- ==== Sys2Proof/Machine/Flow.lean ====
section
/-! DEFINITION. Control transfer (41_flow.md): RET, JP, CALL, JP V0 and the four compare skips. PC is the advanced value
(40_tick_cycle.md R112). -/

namespace Sys2Proof.Machine

/-- RET (41_flow.md R130): the popped address to PC, all sixteen bits. -/
def execRet (s : State) : Host.Outcome State Fault Refusal :=
  conclude s (s.pop.map (fun r => r.2.setPc r.1))

/-- JP nnn (R131). -/
def execJp (nnn : Addr) (s : State) : Host.Outcome State Fault Refusal :=
  conclude s (.ok (s.setPc (zextAddr nnn)))

/-- CALL nnn (R132): push the advanced PC, then jump. -/
def execCall (nnn : Addr) (s : State) : Host.Outcome State Fault Refusal :=
  conclude s ((s.push s.pc).map (fun t => t.setPc (zextAddr nnn)))

/-- JP V0,nnn (R133): not reduced modulo 4096. -/
def execJpV0 (nnn : Addr) (s : State) : Host.Outcome State Fault Refusal :=
  conclude s (.ok (s.setPc (zextAddr nnn + zextByte (s.getV 0#4))))

/-- SE Vx,kk (R134). -/
def execSeImm (x : Nibble) (kk : Byte) (s : State) : Host.Outcome State Fault Refusal :=
  conclude s (.ok (s.skipIf (s.getV x == kk)))

/-- SNE Vx,kk (R135). -/
def execSneImm (x : Nibble) (kk : Byte) (s : State) : Host.Outcome State Fault Refusal :=
  conclude s (.ok (s.skipIf (s.getV x != kk)))

/-- SE Vx,Vy (R136). -/
def execSeReg (x y : Nibble) (s : State) : Host.Outcome State Fault Refusal :=
  conclude s (.ok (s.skipIf (s.getV x == s.getV y)))

/-- SNE Vx,Vy (R137). -/
def execSneReg (x y : Nibble) (s : State) : Host.Outcome State Fault Refusal :=
  conclude s (.ok (s.skipIf (s.getV x != s.getV y)))

end Sys2Proof.Machine
end

