-- ==== Sys2Proof/Machine/IndexMemory.lean ====
section
/-! DEFINITION. The index register, the stores and the loads through it (43_index_memory.md). I is never changed by an
access (R186). -/

namespace Sys2Proof.Machine

/-- LD I,nnn (43_index_memory.md R180). -/
def execLdI (nnn : Addr) (s : State) : Host.Outcome State Fault Refusal :=
  conclude s (.ok (s.setI (zextAddr nnn)))

/-- ADD I,Vx (R181): modulo 65536, no flag. -/
def execAddI (x : Nibble) (s : State) : Host.Outcome State Fault Refusal :=
  conclude s (.ok (s.setI (s.i + zextByte (s.getV x))))

/-- LD F,Vx (R182). -/
def execLdFont (x : Nibble) (s : State) : Host.Outcome State Fault Refusal :=
  conclude s (.ok (s.setI (fontAddr (s.getV x))))

/-- LD B,Vx (R183): hundreds, tens, ones at I, I + 1, I + 2, or nothing. -/
def execLdBcd (x : Nibble) (s : State) : Host.Outcome State Fault Refusal :=
  conclude s (memWrite s s.base (decimalDigits (s.getV x)))

/-- LD [I],Vx (R184): V[0] to V[x] at I to I + x, or nothing. -/
def execStoreRegs (x : Nibble) (s : State) : Host.Outcome State Fault Refusal :=
  conclude s (memWrite s s.base (s.regBlock 0 (blockCount x)))

/-- LD Vx,[I] (R185): V[0] to V[x] from I to I + x, or nothing. -/
def execLoadRegs (x : Nibble) (s : State) : Host.Outcome State Fault Refusal :=
  conclude s ((memRead s .data s.base (blockCount x)).map (fun bs => s.setRegBlock 0 bs))

end Sys2Proof.Machine
end

