-- ==== Sys2Proof/Machine/KeypadTimers.lean ====
section
/-! DEFINITION. The key skips, the wait for a key and the timer instructions (45_keypad_timers.md). -/

namespace Sys2Proof.Machine

/-- SKP Vx (45_keypad_timers.md R223, R225). -/
def execSkp (x : Nibble) (s : State) : Host.Outcome State Fault Refusal :=
  conclude s ((keyQuery s (s.getV x)).map (fun held => s.skipIf held))

/-- SKNP Vx (R224, R225). -/
def execSknp (x : Nibble) (s : State) : Host.Outcome State Fault Refusal :=
  conclude s ((keyQuery s (s.getV x)).map (fun held => s.skipIf (!held)))

/-- The effect of LD Vx,K on the advanced state: the lowest held key to V[x], or PC back on this instruction and WAIT set
(R226, decision D12; log entry 12). -/
def State.pollKey (s : State) (x : Nibble) : State :=
  match s.leastKey with
  | some k => s.setV x (BitVec.ofNat 8 k.val)
  | none => (s.setPc (s.pc - 2#16)).setWait (.awaitingKey x)

/-- LD Vx,K (R226). -/
def execLdRegKey (x : Nibble) (s : State) : Host.Outcome State Fault Refusal :=
  conclude s (.ok (s.pollKey x))

/-- LD Vx,DT (R230). -/
def execLdRegDt (x : Nibble) (s : State) : Host.Outcome State Fault Refusal :=
  conclude s (.ok (s.setV x s.dt))

/-- LD DT,Vx (R231). -/
def execLdDtReg (x : Nibble) (s : State) : Host.Outcome State Fault Refusal :=
  conclude s (.ok (s.setDt (s.getV x)))

/-- LD ST,Vx (R232). -/
def execLdStReg (x : Nibble) (s : State) : Host.Outcome State Fault Refusal :=
  conclude s (.ok (s.setSt (s.getV x)))

/-- TONE = (ST != 0), the level the host observes (R234). -/
def State.tone (s : State) : Bool := s.st != 0#8

end Sys2Proof.Machine
end

