-- ==== Sys2Proof/Machine/Tick.lean ====
section
/-! DEFINITION. ITICK (40_tick_cycle.md R110) and the performing of the host's next command (00_scope.md R8, R9). -/

namespace Sys2Proof.Machine

/-- Execute what a word decoded to, on the advanced state: the instruction's rule, or the unknown-opcode report
(40_tick_cycle.md R114, R115). -/
def runDecoded (d : Decoded) (s : State) : Host.Outcome State Fault Refusal :=
  match d with
  | .instr i => exec i s
  | .unknown w => .next (s.reportUnknown w)

/-- ITICK (40_tick_cycle.md R110): fetch; advance; decode; execute. A fetch error changes nothing of the spec's state
(R111). -/
def iTick (s : State) : Host.Outcome State Fault Refusal :=
  match s.fetch with
  | .error e => .next (s.raise e)
  | .ok w => runDecoded (decode w) s.advance

/-- One command of the host (00_scope.md R9). -/
def perform (c : Command) (s : State) : Host.Outcome State Fault Refusal :=
  match c with
  | .powerOn => .next (cmdPowerOn s)
  | .reset => .next (cmdReset s)
  | .load image => cmdLoad image s
  | .itick => iTick s
  | .ttick => .next (cmdTtick s)
  | .keyPress k => .next (cmdKeyPress k s)
  | .keyRelease k => .next (cmdKeyRelease k s)

/-- The command the host issues next and the rest of its schedule; with nothing pending it issues ITICK (log entry 19). -/
def nextCommand (s : State) : Command × State :=
  match s.schedule with
  | [] => (.itick, s)
  | c :: rest => (c, { s with schedule := rest })

/-- One transition of the machine: the host's next command, performed whole (00_scope.md R8). -/
def hostStep (s : State) : Host.Outcome State Fault Refusal := perform (nextCommand s).1 (nextCommand s).2

end Sys2Proof.Machine
end

