-- ==== Sys2Proof/Machine/Step.lean ====
section
/-! DEFINITION. The step of the machine, and the state in which it fetches a given instruction next. -/

namespace Sys2Proof.Machine

/-- One step: the host's next command, performed atomically; an ITICK when none is pending (00_scope.md R8, R9,
40_tick_cycle.md R110). -/
def step (s : State) : Host.Outcome State Fault Refusal := hostStep s

/-- The state with an instruction, its bits numbered as spec/opcode_table.json numbers them, laid out high byte first at
the address the very next step fetches from, that step being an ITICK (log entry 23). -/
def State.withFetchWord (s : State) (nbits w : Nat) : State := s.placeWord (tableWord nbits w)

end Sys2Proof.Machine
end

