-- ==== Sys2Proof/WellFormed.lean ====
section
/-! DEFINITION. Well-formed terms. An instruction's operands have exactly the widths of the word's fields, so every term
of `Instr` is well-formed (10_state.md R39: "kept by the 4-bit fields"); the check is written out all the same, so
that a change of an operand's type cannot go unnoticed. A host command is well-formed when its image fits
(70_reset_and_hazards.md R282). -/

namespace Sys2Proof

/-- A value fits a field of the given number of bits (30_encoding.md R81, R83). -/
def fitsField (bits value : Nat) : Bool := decide (value < 2 ^ bits)

/-- Every operand lies in its field's range (30_encoding.md R81). -/
def Instr.wellFormed : Instr → Bool
  | .cls | .ret => true
  | .jp nnn | .call nnn | .ldI nnn | .jpV0 nnn => fitsField 12 nnn.toNat
  | .seImm x kk | .sneImm x kk | .ldImm x kk | .addImm x kk | .rnd x kk =>
    fitsField 4 x.toNat && fitsField 8 kk.toNat
  | .seReg x y | .ldReg x y | .orReg x y | .andReg x y | .xorReg x y | .addReg x y | .subReg x y | .shrReg x y
  | .subnReg x y | .shlReg x y | .sneReg x y => fitsField 4 x.toNat && fitsField 4 y.toNat
  | .drw x y n => fitsField 4 x.toNat && fitsField 4 y.toNat && fitsField 4 n.toNat
  | .skp x | .sknp x | .ldRegDt x | .ldRegKey x | .ldDtReg x | .ldStReg x | .addI x | .ldFont x | .ldBcd x
  | .storeRegs x | .loadRegs x => fitsField 4 x.toNat

/-- A command the host may issue: an image is at most 3584 bytes long (70_reset_and_hazards.md R282). -/
def Command.wellFormed : Command → Bool
  | .load image => decide (image.length ≤ Config.maxImage)
  | .powerOn | .reset | .itick | .ttick | .keyPress _ | .keyRelease _ => true

end Sys2Proof
end

