-- ==== Sys2Proof/Safety.lean ====
section
/-! DEFINITION. What claims are stated in: the parts of the state and what it is for all other parts to be unchanged, the
invariants, and the run without a recorded error (60_exceptions.md R258). -/

namespace Sys2Proof.Machine

/-- A part of the machine an instruction may write (10_state.md's tuple, one byte, slot, pixel or key at a time, and the
two model fields an instruction can move). -/
inductive Part where
  | reg (r : Nibble)
  | index
  | pc
  | slot (k : Fin 16)
  | sp
  | delay
  | sound
  | cell (a : Nat)
  | pixel (row : Fin 32) (col : Fin 64)
  | key (k : Fin 16)
  | wait
  | draws
  | mark
  deriving DecidableEq, Repr

/-- The frame: every part not in `writes` reads in `t` as it read in `s`, and the host's schedule and the parameters are untouched. Memory is
compared byte by byte through the model's read, the screen pixel by pixel. -/
structure Frame (writes : Part → Prop) (s t : State) : Prop where
  regs     : ∀ r, ¬ writes (.reg r) → t.getV r = s.getV r
  index    : ¬ writes .index → t.i = s.i
  pc       : ¬ writes .pc → t.pc = s.pc
  slots    : ∀ k : Fin 16, ¬ writes (.slot k) → t.stack[k] = s.stack[k]
  sp       : ¬ writes .sp → t.sp = s.sp
  delay    : ¬ writes .delay → t.dt = s.dt
  sound    : ¬ writes .sound → t.st = s.st
  cells    : ∀ a, ¬ writes (.cell a) → t.readByte a = s.readByte a
  pixels   : ∀ row col, ¬ writes (.pixel row col) → t.pixel row col = s.pixel row col
  keys     : ∀ k, ¬ writes (.key k) → t.isPressed k = s.isPressed k
  wait     : ¬ writes .wait → t.wait = s.wait
  draws    : ¬ writes .draws → t.draws = s.draws
  mark     : ¬ writes .mark → t.errorMark = s.errorMark
  schedule : t.schedule = s.schedule
  config   : t.config = s.config

/-- Memory has its canonical form. -/
abbrev State.memWf (s : State) : Prop := Memory.wf s.config.font s.mem = true

/-- The value SHR and SHL shift: V[y], or V[x] where SHIFT_SRC = VX (42_alu.md R158, R160). -/
def State.shifted (s : State) (x y : Nibble) : Byte := if s.config.shiftSrc = .vy then s.getV y else s.getV x

/-- How many nested calls are legal (41_flow.md R138). -/
abbrev State.callSlots (s : State) : Nat := s.config.stackDepthLimit.slots

/-- The bounds of 10_state.md R25: PC never above 0x10FE, no stack slot above 0x1000. -/
abbrev State.pcBounded (s : State) : Prop :=
  s.pc.toNat ≤ 0x10FE ∧ ∀ k : Fin 16, s.stack[k].toNat ≤ 0x1000

/-- No ITICK has reported AddressError or StackError (60_exceptions.md R258). -/
abbrev State.noError (s : State) : Prop := s.errorMark = false

/-- The fetch of an ITICK finds both bytes in memory (40_tick_cycle.md R111, 10_state.md R24). -/
abbrev State.canFetch (s : State) : Prop := s.pc.toNat ≤ 0x0FFE

/-- The word an ITICK fetches at PC, high byte first (20_memory.md R53). -/
def State.wordAtPc (s : State) : Word := wordOfBytes (s.readByte s.pc.toNat) (s.readByte (s.pc.toNat + 1))

/-- Address a is one of the n addresses from base upward. -/
abbrev inRange (base n a : Nat) : Prop := base ≤ a ∧ a < base + n

/-- The pixel lies in the 8 by n footprint of the sprite DRW places at (V[x], V[y]), wrapped per pixel (44_display.md R203,
R205). -/
def State.footprint (s : State) (x y n : Nibble) (row : Fin 32) (col : Fin 64) : Prop :=
  ∃ j i, j < n.toNat ∧ i < 8 ∧ row.val = ((s.getV y).toNat + j) % 32 ∧ col.val = ((s.getV x).toNat + i) % 64

/-- The sprite bit DRW brings to the pixel is 1: bit 7 - i of the byte at I + j falls on it, or bit i where SPRITE_MSB_LEFT
is false (44_display.md R202, R205, R206). -/
def State.spriteLit (s : State) (x y n : Nibble) (row : Fin 32) (col : Fin 64) : Prop :=
  ∃ j i, j < n.toNat ∧ i < 8 ∧ row.val = ((s.getV y).toNat + j) % 32 ∧ col.val = ((s.getV x).toNat + i) % 64 ∧
    (s.readByte (s.i.toNat + j)).getLsbD (if s.config.spriteMsbLeft = true then 7 - i else i) = true

/-- What each instruction's rule lists as written (files 41 to 45), beside the report; `mark` where the instruction can
report an error. The stored cells are counted from the base the meaning uses. -/
def mayWrite (i : Instr) (s : State) (p : Part) : Prop :=
  match i with
  | .cls => ∃ row col, p = .pixel row col
  | .ret => p = .pc ∨ p = .sp ∨ p = .mark
  | .jp _ | .jpV0 _ | .seImm _ _ | .sneImm _ _ | .seReg _ _ | .sneReg _ _ => p = .pc
  | .call _ => p = .pc ∨ p = .sp ∨ p = .mark ∨ ∃ k : Fin 16, k.val = s.sp.val ∧ p = .slot k
  | .ldImm x _ | .addImm x _ | .ldReg x _ | .orReg x _ | .andReg x _ | .xorReg x _ | .ldRegDt x => p = .reg x
  | .addReg x _ | .subReg x _ | .subnReg x _ | .shrReg x _ | .shlReg x _ => p = .reg x ∨ p = .reg flagReg
  | .rnd x _ => p = .reg x ∨ p = .draws
  | .ldI _ | .addI _ | .ldFont _ => p = .index
  | .drw x y n => p = .reg flagReg ∨ p = .mark ∨ ∃ row col, s.footprint x y n row col ∧ p = .pixel row col
  | .skp _ | .sknp _ => p = .pc ∨ p = .mark
  | .ldRegKey x => p = .reg x ∨ p = .pc ∨ p = .wait
  | .ldDtReg _ => p = .delay
  | .ldStReg _ => p = .sound
  | .ldBcd _ => p = .mark ∨ ∃ a, inRange s.base 3 a ∧ p = .cell a
  | .storeRegs x => p = .mark ∨ ∃ a, inRange s.base (blockCount x) a ∧ p = .cell a
  | .loadRegs x => p = .mark ∨ ∃ r : Nibble, r.toNat ≤ x.toNat ∧ p = .reg r

/-- Several instructions executed one after the other, without the fetch and the advance between them. -/
def execAll : List Instr → State → Host.Outcome State Fault Refusal
  | [], s => .next s
  | i :: is, s =>
    match exec i s with
    | .next t => execAll is t
    | .fault f => .fault f
    | .refused r => .refused r

/-- Several commands of the host performed one after the other. -/
def performAll : List Command → State → Host.Outcome State Fault Refusal
  | [], s => .next s
  | c :: cs, s =>
    match perform c s with
    | .next t => performAll cs t
    | .fault f => .fault f
    | .refused r => .refused r

end Sys2Proof.Machine
end

