-- ==== Sys2Proof/Certificates/Slice0/Obligations.lean ====
section
/-! DEFINITION. The statements for the provers. `exec` acts on the state after the advance, so "PC" in a statement about
`exec` is the advanced PC (40_tick_cycle.md R112). Every statement about a next state gives the values the rule gives
and the frame: which parts may differ at all. -/

open Sys2Proof Sys2Proof.Machine

/-! ## Encoding and decoding -/

/-- 30_encoding.md R85, R86: a few words written out from the opcode map, the two words the source prints among them
(the other match values are the spec's from general knowledge, log entry 1), and words that match no row (R87). -/
def Obligations.SpecWordsDecode : Prop :=
  decode 0x6A05#16 = .instr (.ldImm 0xA#4 0x05#8) ∧
  decode 0x7A03#16 = .instr (.addImm 0xA#4 0x03#8) ∧
  decode 0x00EE#16 = .instr .ret ∧
  decode 0x220E#16 = .instr (.call 0x20E#12) ∧
  decode 0x9120#16 = .instr (.sneReg 0x1#4 0x2#4) ∧
  decode 0x812E#16 = .instr (.shlReg 0x1#4 0x2#4) ∧
  decode 0xA300#16 = .instr (.ldI 0x300#12) ∧
  decode 0xD12F#16 = .instr (.drw 0x1#4 0x2#4 0xF#4) ∧
  decode 0xE5A1#16 = .instr (.sknp 0x5#4) ∧
  decode 0xF365#16 = .instr (.loadRegs 0x3#4) ∧
  decode 0x0000#16 = .unknown 0x0000#16 ∧
  decode 0x5121#16 = .unknown 0x5121#16 ∧
  decode 0xFFFF#16 = .unknown 0xFFFF#16

/-- 30_encoding.md R82, R84, R85 (log entries 1, 2): no bit of an encoding is dropped. -/
def Obligations.DecodeOfEncodeIsTheInstruction : Prop :=
  ∀ i : Instr, decode (encode i) = .instr i

/-- 30_encoding.md R84: a word decodes to one instruction only, and that instruction's encoding is the word. -/
def Obligations.EncodeOfDecodeIsTheWord : Prop :=
  ∀ (w : Word) (i : Instr), decode w = .instr i → encode i = w

/-- 30_encoding.md R84, R85: the decoder, written by nibbles, answers an instruction exactly for the words a row of the
map of matches and masks admits, and then an instruction of that row. -/
def Obligations.DecoderFollowsTheOpcodeMap : Prop :=
  (∀ (w : Word) (i : Instr), decode w = .instr i → i.row ∈ opcodeMap ∧ i.row.admits w) ∧
  (∀ (w : Word) (r : OpcodeRow), r ∈ opcodeMap → r.admits w → ∃ i, decode w = .instr i ∧ i.row = r)

/-- 30_encoding.md R87: the unknown words by family (exact decoding is the spec's decision D2, log entry 2). -/
def Obligations.UnknownWordsByFamily : Prop :=
  ∀ w : Word, decode w = .unknown w ↔
    (opField w = 0x0#4 ∧ nnnField w ≠ 0x0E0#12 ∧ nnnField w ≠ 0x0EE#12) ∨
    (opField w = 0x5#4 ∧ nField w ≠ 0x0#4) ∨
    (opField w = 0x8#4 ∧ nField w ∈ [0x8#4, 0x9#4, 0xA#4, 0xB#4, 0xC#4, 0xD#4, 0xF#4]) ∨
    (opField w = 0x9#4 ∧ nField w ≠ 0x0#4) ∨
    (opField w = 0xE#4 ∧ kkField w ≠ 0x9E#8 ∧ kkField w ≠ 0xA1#8) ∨
    (opField w = 0xF#4 ∧
      kkField w ∉ [0x07#8, 0x0A#8, 0x15#8, 0x18#8, 0x1E#8, 0x29#8, 0x33#8, 0x55#8, 0x65#8])

/-- 20_memory.md R53: the byte at PC is bits 15 to 8 of the word, the byte at PC + 1 is bits 7 to 0. That the fetch succeeds
at an odd PC too is the spec's decision D15 (R24, R55; log entry 15). -/
def Obligations.FetchIsBigEndian : Prop :=
  ∀ s : State, s.pc.toNat ≤ 0x0FFE →
    ∃ w, s.fetch = .ok w ∧
      w.toNat = (s.readByte s.pc.toNat).toNat * 256 + (s.readByte (s.pc.toNat + 1)).toNat

/-! ## The tick -/

/-- 40_tick_cycle.md R110, R112, R114: an ITICK whose word decodes to an instruction is that instruction's rule on the
state with PC advanced by 2 and WAIT Running, everything else untouched. The step is that ITICK where no command is
pending and where an ITICK is the next of any list of commands (log entry 19). -/
def Obligations.StepRunsTheDecodedInstruction : Prop :=
  ∀ (s : State) (i : Instr), s.canFetch → decode s.wordAtPc = .instr i →
    iTick s = exec i s.advance ∧
    (s.schedule = [] → step s = exec i s.advance) ∧
    (∀ rest, s.schedule = .itick :: rest → step s = exec i ({ s with schedule := rest } : State).advance) ∧
    s.advance.pc = s.pc + 2#16 ∧ s.advance.wait = .running ∧ s.advance.report = s.report ∧
    Frame (fun p => p ∈ [.pc, .wait]) s s.advance

/-- 00_scope.md R8, R9: a step performs the host's next command whole, and an ITICK where none is pending. That pending
commands are a list in the state is the model's choice (log entry 19). -/
def Obligations.StepPerformsTheNextCommand : Prop :=
  ∀ s : State,
    (s.schedule = [] → step s = iTick s ∧ step s = perform .itick s) ∧
    (∀ c rest, s.schedule = c :: rest → step s = perform c { s with schedule := rest })

/-- 40_tick_cycle.md R115: an ITICK whose word matches no row is a reported no-op. -/
def Obligations.UnknownWordIsAReportedNoOp : Prop :=
  ∀ s : State, s.pc.toNat ≤ 0x0FFE → (∀ r ∈ opcodeMap, ¬ r.admits s.wordAtPc) →
    ∃ t, iTick s = .next t ∧ t.pc = s.pc + 2#16 ∧ t.wait = .running ∧
      t.report = some (.unknownOpcode s.wordAtPc) ∧ Frame (fun p => p ∈ [.pc, .wait]) s t

/-- 40_tick_cycle.md R111, 60_exceptions.md R252, R257: a fetch above 0x0FFE is reported and changes nothing, PC and WAIT
included, and "every later ITICK raises the same error" for as long as the host issues ITICKs alone; where no command is
pending the steps are these ITICKs (that nothing changes
and which address is reported are the spec's decision D8, log entry 8). -/
def Obligations.FetchErrorRepeats : Prop :=
  ∀ (n : Nat) (s : State), 0x0FFE < s.pc.toNat →
    ∃ t : State, performAll (List.replicate (n + 1) .itick) s = .next t ∧
      (s.schedule = [] → Host.Core.run Sys2Proof.core (n + 1) s = .next t) ∧
      t.report = some (.error (.address .fetch (max s.pc.toNat 0x1000))) ∧
      t.errorMark = true ∧ Frame (fun p => p = .mark) s t

/-- 40_tick_cycle.md R110, R116: an ITICK is defined in every state and returns a result. -/
def Obligations.EveryTickReturnsAResult : Prop :=
  ∀ s : State, ∃ t r, iTick s = .next t ∧ t.report = some r

/-- 60_exceptions.md R257, 70_reset_and_hazards.md R282: nothing stops the machine but a LOAD of more than 3584 bytes,
which has no move (decision D16, log entries 16, 24). -/
def Obligations.OnlyAnOversizedLoadStops : Prop :=
  ∀ s : State, (∀ f, step s ≠ .fault f) ∧
    ∀ r, step s = .refused r ↔
      ∃ image rest, s.schedule = .load image :: rest ∧ 3584 < image.length ∧ r = .oversizedLoad image.length

/-- Files 41 to 45, 60_exceptions.md R257: the frame of every instruction. Whatever it does, completing or raising an
exception, it changes no part of the state but those its rule lists. -/
def Obligations.EveryInstructionKeepsItsFrame : Prop :=
  ∀ (i : Instr) (s t : State), exec i s = .next t → Frame (mayWrite i s) s t

/-- 40_tick_cycle.md R119: an ITICK changes only what its instruction's rule lists, plus PC and WAIT (and the model's error
mark, log entry 8); no ITICK writes KEY; DT, ST, FB, MEM, SP and STACK are changed by the instructions named only. -/
def Obligations.TickChangesOnlyWhatTheRuleLists : Prop :=
  ∀ s t : State, iTick s = .next t →
    (∀ i, s.pc.toNat ≤ 0x0FFE → decode s.wordAtPc = .instr i →
      Frame (fun p => p = .pc ∨ p = .wait ∨ mayWrite i s.advance p) s t) ∧
    ((¬ ∃ i, s.pc.toNat ≤ 0x0FFE ∧ decode s.wordAtPc = .instr i) → Frame (fun p => p ∈ [.pc, .wait, .mark]) s t) ∧
    (∀ k, t.isPressed k = s.isPressed k) ∧
    (t.dt ≠ s.dt → ∃ x, s.pc.toNat ≤ 0x0FFE ∧ decode s.wordAtPc = .instr (.ldDtReg x)) ∧
    (t.st ≠ s.st → ∃ x, s.pc.toNat ≤ 0x0FFE ∧ decode s.wordAtPc = .instr (.ldStReg x)) ∧
    ((∃ row col, t.pixel row col ≠ s.pixel row col) → s.pc.toNat ≤ 0x0FFE ∧
      (decode s.wordAtPc = .instr .cls ∨ ∃ x y n, decode s.wordAtPc = .instr (.drw x y n))) ∧
    ((∃ a, t.readByte a ≠ s.readByte a) → s.pc.toNat ≤ 0x0FFE ∧
      ∃ x, decode s.wordAtPc = .instr (.ldBcd x) ∨ decode s.wordAtPc = .instr (.storeRegs x)) ∧
    ((t.sp ≠ s.sp ∨ ∃ k : Fin 16, t.stack[k] ≠ s.stack[k]) → s.pc.toNat ≤ 0x0FFE ∧
      (decode s.wordAtPc = .instr .ret ∨ ∃ nnn, decode s.wordAtPc = .instr (.call nnn)))

/-- 10_state.md R34, 40_tick_cycle.md R117: WAIT is "read by no rule": an ITICK whose fetch succeeds ends in the same state
whatever WAIT was (decision D12, log entry 12). -/
def Obligations.TickIgnoresWait : Prop :=
  ∀ (s : State) (w : WaitStatus), s.canFetch → iTick { s with wait := w } = iTick s

/-! ## Register load, arithmetic, logic, shift, random -/

/-- 42_alu.md R150: LD Vx,kk. -/
def Obligations.LoadImmediate : Prop :=
  ∀ (x : Nibble) (kk : Byte),
    decode (BitVec.ofNat 16 (0x6000 + 256 * x.toNat + kk.toNat)) = .instr (.ldImm x kk) ∧
    ∀ s : State, ∃ t, exec (.ldImm x kk) s = .next t ∧ t.report = some .done ∧ t.getV x = kk ∧
      Frame (fun p => p = .reg x) s t

/-- 42_alu.md R151: ADD Vx,kk, modulo 256, VF written only as the named destination. -/
def Obligations.AddImmediateWrapsWithoutFlag : Prop :=
  ∀ (x : Nibble) (kk : Byte),
    decode (BitVec.ofNat 16 (0x7000 + 256 * x.toNat + kk.toNat)) = .instr (.addImm x kk) ∧
    ∀ s : State, ∃ t, exec (.addImm x kk) s = .next t ∧ t.report = some .done ∧
      (t.getV x).toNat = ((s.getV x).toNat + kk.toNat) % 256 ∧ Frame (fun p => p = .reg x) s t

/-- 42_alu.md R152 to R155: LD Vx,Vy, OR, AND, XOR: the destination bit by bit, VF unchanged unless named (the encodings are
the spec's decision D1, log entry 1). -/
def Obligations.MoveAndLogic : Prop :=
  ∀ x y : Nibble,
    (decode (BitVec.ofNat 16 (0x8000 + 256 * x.toNat + 16 * y.toNat)) = .instr (.ldReg x y) ∧
     decode (BitVec.ofNat 16 (0x8001 + 256 * x.toNat + 16 * y.toNat)) = .instr (.orReg x y) ∧
     decode (BitVec.ofNat 16 (0x8002 + 256 * x.toNat + 16 * y.toNat)) = .instr (.andReg x y) ∧
     decode (BitVec.ofNat 16 (0x8003 + 256 * x.toNat + 16 * y.toNat)) = .instr (.xorReg x y)) ∧
    ∀ s : State,
      (∃ t, exec (.ldReg x y) s = .next t ∧ t.report = some .done ∧ t.getV x = s.getV y ∧
        Frame (fun p => p = .reg x) s t) ∧
      (∃ t, exec (.orReg x y) s = .next t ∧ t.report = some .done ∧
        (∀ b, b < 8 → (t.getV x).getLsbD b = ((s.getV x).getLsbD b || (s.getV y).getLsbD b)) ∧
        Frame (fun p => p = .reg x) s t) ∧
      (∃ t, exec (.andReg x y) s = .next t ∧ t.report = some .done ∧
        (∀ b, b < 8 → (t.getV x).getLsbD b = ((s.getV x).getLsbD b && (s.getV y).getLsbD b)) ∧
        Frame (fun p => p = .reg x) s t) ∧
      (∃ t, exec (.xorReg x y) s = .next t ∧ t.report = some .done ∧
        (∀ b, b < 8 → (t.getV x).getLsbD b = xor ((s.getV x).getLsbD b) ((s.getV y).getLsbD b)) ∧
        Frame (fun p => p = .reg x) s t)

/-- 42_alu.md R156, R162: ADD Vx,Vy. Both operands are the values before; VF ends as the carry, also when x is 15, where
the sum is lost (that the flag is written last is the spec's decision D4, log entry 4). -/
def Obligations.AddSetsTheCarry : Prop :=
  ∀ (x y : Nibble) (s : State), ∃ t, exec (.addReg x y) s = .next t ∧ t.report = some .done ∧
    (x ≠ 15#4 → (t.getV x).toNat = ((s.getV x).toNat + (s.getV y).toNat) % 256) ∧
    (t.getV 15#4).toNat = (if (s.getV x).toNat + (s.getV y).toNat > 255 then 1 else 0) ∧
    Frame (fun p => p ∈ [.reg x, .reg 15#4]) s t

/-- 42_alu.md R157, R159, R162: SUB and SUBN. VF ends as the not-borrow, 1 when the operands are equal, also when x is 15
(decision D4, log entry 4). -/
def Obligations.SubtractSetsTheNotBorrow : Prop :=
  ∀ (x y : Nibble) (s : State),
    (∃ t, exec (.subReg x y) s = .next t ∧ t.report = some .done ∧
      (x ≠ 15#4 → (t.getV x).toNat = ((s.getV x).toNat + 256 - (s.getV y).toNat) % 256) ∧
      (t.getV 15#4).toNat = (if (s.getV x).toNat ≥ (s.getV y).toNat then 1 else 0) ∧
      Frame (fun p => p ∈ [.reg x, .reg 15#4]) s t) ∧
    (∃ t, exec (.subnReg x y) s = .next t ∧ t.report = some .done ∧
      (x ≠ 15#4 → (t.getV x).toNat = ((s.getV y).toNat + 256 - (s.getV x).toNat) % 256) ∧
      (t.getV 15#4).toNat = (if (s.getV y).toNat ≥ (s.getV x).toNat then 1 else 0) ∧
      Frame (fun p => p ∈ [.reg x, .reg 15#4]) s t)

/-- 42_alu.md R158, R160, R162: SHR and SHL shift the source by one and V[x] receives the result, under every value of
SHIFT_SRC and FLAG_ORDER: the source is V[y] or V[x], and where x is 15 VF ends as the flag or as the result (the spec's
decisions D3 and D4, log entries 3, 4). -/
def Obligations.ShiftsMoveOneBitOut : Prop :=
  ∀ (x y : Nibble) (s : State),
    (∃ t, exec (.shrReg x y) s = .next t ∧ t.report = some .done ∧
      (x ≠ 15#4 ∨ s.config.flagOrder = .resultLast → (t.getV x).toNat = (s.shifted x y).toNat / 2) ∧
      (x ≠ 15#4 ∨ s.config.flagOrder = .flagLast → (t.getV 15#4).toNat = (s.shifted x y).toNat % 2) ∧
      Frame (fun p => p ∈ [.reg x, .reg 15#4]) s t) ∧
    (∃ t, exec (.shlReg x y) s = .next t ∧ t.report = some .done ∧
      (x ≠ 15#4 ∨ s.config.flagOrder = .resultLast → (t.getV x).toNat = (2 * (s.shifted x y).toNat) % 256) ∧
      (x ≠ 15#4 ∨ s.config.flagOrder = .flagLast → (t.getV 15#4).toNat = (s.shifted x y).toNat / 128) ∧
      Frame (fun p => p ∈ [.reg x, .reg 15#4]) s t)

/-- 42_alu.md R158, R162 (c): with x = y the shifts do not depend on SHIFT_SRC, and with x not 15 they do not depend on
FLAG_ORDER. -/
def Obligations.ShiftParametersMatterOnlyWhereSaid : Prop :=
  ∀ (q : Params) (x y : Nibble) (s t : State) (i : Instr),
    (s.config.shiftSrc = q.shiftSrc ∨ x = y) → (s.config.flagOrder = q.flagOrder ∨ x ≠ 15#4) →
    (i = .shrReg x y ∨ i = .shlReg x y) → exec i s = .next t →
      exec i { s with config := q } = .next { t with config := q }

/-- 42_alu.md R161: RND Vx,kk is the host's byte ANDed with kk, whatever the byte is; the byte is the next of the free stream
(decision D19, log entry 18). -/
def Obligations.RandomIsMasked : Prop :=
  ∀ (x : Nibble) (kk : Byte) (s : State),
    (∃ t, exec (.rnd x kk) s = .next t ∧ t.report = some .done ∧
      t.getV x = Config.randomByte s.draws &&& kk ∧ t.draws = s.draws + 1 ∧
      Frame (fun p => p ∈ [.reg x, .draws]) s t) ∧
    (∀ r : Byte, ∃ t, rndWith r x kk s = .next t ∧
      (∀ b, b < 8 → (t.getV x).getLsbD b = (r.getLsbD b && kk.getLsbD b)) ∧ Frame (fun p => p = .reg x) s t)

/-- 10_state.md R21: the six flag-writing instructions leave VF 0 or 1 whenever they complete, and no other instruction
writes VF unless it names register 15 as its destination. That the flag survives where the destination is register 15
rests on the flag being written last (the spec's decision D4, log entry 4); with FLAG_ORDER = RESULT_LAST a shift into
register 15 leaves the shifted value and is excepted. -/
def Obligations.OnlySixInstructionsWriteTheFlag : Prop :=
  ∀ (i : Instr) (s t : State), exec i s = .next t →
    ((∃ x y n, i = .addReg x y ∨ i = .subReg x y ∨ i = .subnReg x y ∨ i = .shrReg x y ∨ i = .shlReg x y ∨
        i = .drw x y n) →
      (¬ ∃ y, s.config.flagOrder = .resultLast ∧ (i = .shrReg 15#4 y ∨ i = .shlReg 15#4 y)) →
      t.report = some .done → (t.getV 15#4 = 0#8 ∨ t.getV 15#4 = 1#8)) ∧
    ((¬ ∃ x y n, i = .addReg x y ∨ i = .subReg x y ∨ i = .subnReg x y ∨ i = .shrReg x y ∨ i = .shlReg x y ∨
        i = .drw x y n) →
      (∀ kk y, i ≠ .ldImm 15#4 kk ∧ i ≠ .addImm 15#4 kk ∧ i ≠ .rnd 15#4 kk ∧ i ≠ .ldReg 15#4 y ∧ i ≠ .orReg 15#4 y ∧
        i ≠ .andReg 15#4 y ∧ i ≠ .xorReg 15#4 y ∧ i ≠ .ldRegDt 15#4 ∧ i ≠ .ldRegKey 15#4 ∧ i ≠ .loadRegs 15#4) →
      t.getV 15#4 = s.getV 15#4)

/-! ## Control flow -/

/-- 41_flow.md R131: JP nnn. The target 0xFFF is accepted and the next fetch reports it (the encoding is the spec's decision
D1, the reported address its decision D8; log entries 1, 8). -/
def Obligations.JumpSetsThePc : Prop :=
  ∀ nnn : Addr,
    decode (BitVec.ofNat 16 (0x1000 + nnn.toNat)) = .instr (.jp nnn) ∧
    ∀ s : State, ∃ t, exec (.jp nnn) s = .next t ∧ t.report = some .done ∧ t.pc.toNat = nnn.toNat ∧
      (nnn = 0xFFF#12 → t.fetch = .error (.address .fetch 0x1000)) ∧ Frame (fun p => p = .pc) s t

/-- 41_flow.md R133: JP V0,nnn, not reduced modulo 4096 (decision D9, log entry 9). -/
def Obligations.IndexedJumpAddsVZero : Prop :=
  ∀ (nnn : Addr) (s : State), ∃ t, exec (.jpV0 nnn) s = .next t ∧ t.report = some .done ∧
    t.pc.toNat = nnn.toNat + (s.getV 0#4).toNat ∧ Frame (fun p => p = .pc) s t

/-- 41_flow.md R134 to R137, R139: the four compare skips, and the low nibble the register forms must have (the encodings are
the spec's decisions D1 and D2, log entries 1, 2). -/
def Obligations.CompareSkips : Prop :=
  (∀ (x : Nibble) (kk : Byte),
    decode (BitVec.ofNat 16 (0x3000 + 256 * x.toNat + kk.toNat)) = .instr (.seImm x kk) ∧
    decode (BitVec.ofNat 16 (0x4000 + 256 * x.toNat + kk.toNat)) = .instr (.sneImm x kk) ∧
    ∀ s : State,
      (∃ t, exec (.seImm x kk) s = .next t ∧ t.report = some .done ∧
        t.pc = (if s.getV x = kk then s.pc + 2#16 else s.pc) ∧ Frame (fun p => p = .pc) s t) ∧
      (∃ t, exec (.sneImm x kk) s = .next t ∧ t.report = some .done ∧
        t.pc = (if s.getV x = kk then s.pc else s.pc + 2#16) ∧ Frame (fun p => p = .pc) s t)) ∧
  (∀ x y : Nibble,
    decode (BitVec.ofNat 16 (0x5000 + 256 * x.toNat + 16 * y.toNat)) = .instr (.seReg x y) ∧
    decode (BitVec.ofNat 16 (0x9000 + 256 * x.toNat + 16 * y.toNat)) = .instr (.sneReg x y) ∧
    ∀ s : State,
      (∃ t, exec (.seReg x y) s = .next t ∧ t.report = some .done ∧
        t.pc = (if s.getV x = s.getV y then s.pc + 2#16 else s.pc) ∧ Frame (fun p => p = .pc) s t) ∧
      (∃ t, exec (.sneReg x y) s = .next t ∧ t.report = some .done ∧
        t.pc = (if s.getV x = s.getV y then s.pc else s.pc + 2#16) ∧ Frame (fun p => p = .pc) s t)) ∧
  (∀ w : Word, (opField w = 0x5#4 ∨ opField w = 0x9#4) → nField w ≠ 0x0#4 → decode w = .unknown w)

/-- 41_flow.md R132, R138: CALL with a free slot pushes the advanced PC and jumps (how many slots are usable is
STACK_DEPTH_LIMIT, write then increment the spec's decision D7; log entry 7). -/
def Obligations.CallPushesTheReturnAddress : Prop :=
  ∀ (nnn : Addr) (s : State) (k : Fin 16), k.val = s.sp.val → s.sp.val < s.callSlots →
    ∃ t, exec (.call nnn) s = .next t ∧ t.report = some .done ∧
      t.stack[k] = s.pc ∧ t.sp.val = s.sp.val + 1 ∧ t.pc.toNat = nnn.toNat ∧
      Frame (fun p => p ∈ [.pc, .sp, .slot k]) s t

/-- 41_flow.md R130, R138: RET pops the most recent return address, all sixteen bits, and leaves the slot's content. -/
def Obligations.ReturnPopsTheReturnAddress : Prop :=
  ∀ (s : State) (h : 0 < s.sp.val), ∃ t, exec .ret s = .next t ∧ t.report = some .done ∧
    t.pc = s.stack[s.sp.val - 1] ∧ t.sp.val = s.sp.val - 1 ∧ Frame (fun p => p ∈ [.pc, .sp]) s t

/-- 41_flow.md R130, R132, R138, 60_exceptions.md R253, R257: CALL with STACK_DEPTH_LIMIT entries reports
StackError(Overflow), pushes nothing and does not jump; RET on an empty stack reports StackError(Underflow) (decisions D7,
D8, log entries 7, 8). -/
def Obligations.StackErrorsAreReported : Prop :=
  ∀ s : State,
    (∀ nnn : Addr, s.callSlots ≤ s.sp.val → ∃ t, exec (.call nnn) s = .next t ∧
      t.report = some (.error (.stack .overflow)) ∧ t.errorMark = true ∧ Frame (fun p => p = .mark) s t) ∧
    (s.sp.val = 0 → ∃ t, exec .ret s = .next t ∧
      t.report = some (.error (.stack .underflow)) ∧ t.errorMark = true ∧ Frame (fun p => p = .mark) s t)

/-- 41_flow.md R130, R138: last in, first out. Any calls that fit, followed by as many returns, come back to the address
after the first call with the stack pointer as before and no error. How many fit is STACK_DEPTH_LIMIT, sixteen by default
(the spec's decision D7, log entry 7). -/
def Obligations.CallsAndReturnsNest : Prop :=
  ∀ (targets : List Addr) (s : State), s.sp.val + targets.length ≤ s.callSlots →
    ∃ t, execAll (targets.map .call ++ List.replicate targets.length .ret) s = .next t ∧
      t.pc = s.pc ∧ t.sp = s.sp ∧ t.errorMark = s.errorMark ∧ (∀ r, t.getV r = s.getV r) ∧
      ∀ k : Fin 16, k.val < s.sp.val → t.stack[k] = s.stack[k]

/-- 41_flow.md R138, 70_reset_and_hazards.md R288: from an empty stack STACK_DEPTH_LIMIT nested calls succeed, sixteen
by default, and every further one is reported as an overflow (decision D7, log entry 7). -/
def Obligations.SixteenCallsFitAndNotSeventeen : Prop :=
  ∀ (targets : List Addr) (s : State), s.sp.val = 0 → s.errorMark = false →
    (targets.length ≤ s.callSlots → ∃ t, execAll (targets.map .call) s = .next t ∧ t.errorMark = false ∧
      t.sp.val = targets.length) ∧
    (s.callSlots < targets.length → ∃ t, execAll (targets.map .call) s = .next t ∧ t.errorMark = true ∧
      t.report = some (.error (.stack .overflow)) ∧ t.sp.val = s.callSlots)

/-! ## The index register and memory -/

/-- 43_index_memory.md R180: LD I,nnn (the encoding is the spec's decision D1, log entry 1). -/
def Obligations.LoadIndex : Prop :=
  ∀ nnn : Addr,
    decode (BitVec.ofNat 16 (0xA000 + nnn.toNat)) = .instr (.ldI nnn) ∧
    ∀ s : State, ∃ t, exec (.ldI nnn) s = .next t ∧ t.report = some .done ∧ t.i.toNat = nnn.toNat ∧
      Frame (fun p => p = .index) s t

/-- 43_index_memory.md R181, R182: ADD I,Vx modulo 65536, no flag and no error (decision D10, log entry 10); LD F,Vx gives 5
times the low nibble (glyph d at 5d is decision D6, log entry 6). -/
def Obligations.IndexArithmetic : Prop :=
  ∀ (x : Nibble) (s : State),
    (∃ t, exec (.addI x) s = .next t ∧ t.report = some .done ∧
      t.i.toNat = (s.i.toNat + (s.getV x).toNat) % 65536 ∧ Frame (fun p => p = .index) s t) ∧
    (∃ t, exec (.ldFont x) s = .next t ∧ t.report = some .done ∧
      t.i.toNat = 5 * ((s.getV x).toNat % 16) ∧ Frame (fun p => p = .index) s t)

/-- 43_index_memory.md R183: LD B,Vx writes the three decimal digits at I, I + 1, I + 2. -/
def Obligations.DecimalDigitsAreStored : Prop :=
  ∀ (x : Nibble) (s : State), s.memWf → s.i.toNat + 2 ≤ 0xFFF → ∃ t, exec (.ldBcd x) s = .next t ∧
    t.report = some .done ∧
    (t.readByte s.base).toNat = (s.getV x).toNat / 100 ∧
    (t.readByte (s.base + 1)).toNat = (s.getV x).toNat / 10 % 10 ∧
    (t.readByte (s.base + 2)).toNat = (s.getV x).toNat % 10 ∧
    Frame (fun p => ∃ a, inRange s.base 3 a ∧ p = .cell a) s t

/-- 43_index_memory.md R184: LD [I],Vx writes V[0] to V[x] at I to I + x; I is unchanged. -/
def Obligations.RegistersAreStored : Prop :=
  ∀ (x : Nibble) (s : State), s.memWf → s.i.toNat + x.toNat ≤ 0xFFF → ∃ t, exec (.storeRegs x) s = .next t ∧
    t.report = some .done ∧
    (∀ r : Nibble, r.toNat ≤ x.toNat → t.readByte (s.base + r.toNat) = s.getV r) ∧
    Frame (fun p => ∃ a, inRange s.base (x.toNat + 1) a ∧ p = .cell a) s t

/-- 43_index_memory.md R185: LD Vx,[I] reads V[0] to V[x] from I to I + x; the other registers, I and memory are unchanged. -/
def Obligations.RegistersAreLoaded : Prop :=
  ∀ (x : Nibble) (s : State), s.i.toNat + x.toNat ≤ 0xFFF → ∃ t, exec (.loadRegs x) s = .next t ∧
    t.report = some .done ∧
    (∀ r : Nibble, r.toNat ≤ x.toNat → t.getV r = s.readByte (s.base + r.toNat)) ∧
    Frame (fun p => ∃ r : Nibble, r.toNat ≤ x.toNat ∧ p = .reg r) s t

/-- 20_memory.md R59, R60, 43_index_memory.md R186, 60_exceptions.md R252, R257: an access whose highest byte lies above 0xFFF
is reported with the lowest address outside memory and nothing is read or written (decision D8, log entry 8). -/
def Obligations.BlockAccessOutsideMemoryIsReported : Prop :=
  ∀ (i : Instr) (s : State),
    ((∃ x, i = .ldBcd x ∧ 0xFFF < s.i.toNat + 2) ∨ (∃ x, i = .storeRegs x ∧ 0xFFF < s.i.toNat + x.toNat) ∨
     (∃ x, i = .loadRegs x ∧ 0xFFF < s.i.toNat + x.toNat) ∨
     (∃ x y n, i = .drw x y n ∧ n ≠ 0#4 ∧ 0xFFF < s.i.toNat + n.toNat - 1)) →
    ∃ t, exec i s = .next t ∧ t.report = some (.error (.address .data (max s.i.toNat 0x1000))) ∧
      t.errorMark = true ∧ Frame (fun p => p = .mark) s t

/-- 20_memory.md R52: MemWrite of one byte changes exactly that cell; above 0xFFF it is an AddressError. -/
def Obligations.MemWriteChangesOneCell : Prop :=
  ∀ (s : State) (addr : Nat) (b : Byte), s.memWf →
    (0xFFF < addr → memWrite s addr [b] = .error (.address .data addr)) ∧
    (addr ≤ 0xFFF → ∃ t, memWrite s addr [b] = .ok t ∧ t.readByte addr = b ∧ t.memWf ∧ t.report = s.report ∧
      Frame (fun p => p = .cell addr) s t)

/-- Log entry 21 (the model's representation): two memories in canonical form that read the same everywhere are the same
list. -/
def Obligations.CanonicalMemoriesAreEqualData : Prop :=
  ∀ (f : Font) (m m' : Memory), Memory.wf f m = true → Memory.wf f m' = true →
    (∀ a, readCell f m a = readCell f m' a) → m = m'

/-- 20_memory.md R64: a store into the instruction stream is seen by the very next fetch. -/
def Obligations.StoresAreSeenByTheNextFetch : Prop :=
  ∀ (x r : Nibble) (s : State), s.memWf → s.i.toNat + x.toNat ≤ 0xFFF → r.toNat < x.toNat →
    ∃ t, exec (.storeRegs x) s = .next t ∧
      (t.setPc (BitVec.ofNat 16 (s.i.toNat + r.toNat))).fetch = .ok (wordOfBytes (s.getV r) (s.getV (r + 1#4)))

/-! ## Display -/

/-- 44_display.md R201: CLS (the encoding is the spec's decision D1, log entry 1). -/
def Obligations.ClearScreenClearsEveryPixel : Prop :=
  decode 0x00E0#16 = .instr .cls ∧
  ∀ s : State, ∃ t, exec .cls s = .next t ∧ t.report = some .done ∧ (∀ row col, t.pixel row col = false) ∧
    Frame (fun p => ∃ row col, p = .pixel row col) s t

/-- 44_display.md R202 to R209: DRW within memory. A pixel changes exactly when a sprite bit 1 falls on it, coordinates
wrapping per pixel; VF ends 1 exactly when such a pixel was lit before; with n = 0 nothing is read or drawn and VF ends 0
(which bit column i is follows SPRITE_MSB_LEFT, the spec's decision D5, n = 0 its decision D21; log entries 5, 20). -/
def Obligations.DrawTogglesAndDetectsCollision : Prop :=
  ∀ (x y n : Nibble) (s : State), (n = 0#4 ∨ s.i.toNat + n.toNat - 1 ≤ 0xFFF) →
    ∃ t, exec (.drw x y n) s = .next t ∧ t.report = some .done ∧
      (∀ row col, t.pixel row col ≠ s.pixel row col ↔ s.spriteLit x y n row col) ∧
      ((∃ row col, s.spriteLit x y n row col ∧ s.pixel row col = true) → t.getV 15#4 = 1#8) ∧
      ((¬ ∃ row col, s.spriteLit x y n row col ∧ s.pixel row col = true) → t.getV 15#4 = 0#8) ∧
      Frame (fun p => p = .reg 15#4 ∨ ∃ row col, s.footprint x y n row col ∧ p = .pixel row col) s t

/-- 44_display.md R203: "Drawing the same sprite twice at the same position restores the framebuffer." -/
def Obligations.DrawingTwiceRestoresTheScreen : Prop :=
  ∀ (x y n : Nibble) (s t : State), (n = 0#4 ∨ s.i.toNat + n.toNat - 1 ≤ 0xFFF) →
    exec (.drw x y n) s = .next t → t.getV x = s.getV x → t.getV y = s.getV y →
    ∃ u, exec (.drw x y n) t = .next u ∧ ∀ row col, u.pixel row col = s.pixel row col

/-! ## Keypad and timers -/

/-- 45_keypad_timers.md R223, R224: SKP and SKNP with a code 0 to 15 test the level of that key. -/
def Obligations.KeySkipsTestTheHeldKey : Prop :=
  ∀ (x : Nibble) (s : State) (k : Fin 16), (s.getV x).toNat = k.val →
    (∃ t, exec (.skp x) s = .next t ∧ t.report = some .done ∧
      t.pc = (if s.isPressed k = true then s.pc + 2#16 else s.pc) ∧ Frame (fun p => p = .pc) s t) ∧
    (∃ t, exec (.sknp x) s = .next t ∧ t.report = some .done ∧
      t.pc = (if s.isPressed k = true then s.pc else s.pc + 2#16) ∧ Frame (fun p => p = .pc) s t)

/-- 45_keypad_timers.md R225, 60_exceptions.md R257: a key code above 15 is AddressError(KEY, code) and no skip is made, or
with the other values of KEY_OOR the low nibble is queried, or no key counts as held (decisions D8, D11, log entries 8,
11). -/
def Obligations.KeyCodeAboveFifteenIsReported : Prop :=
  ∀ (x : Nibble) (s : State), 15 < (s.getV x).toNat →
    (s.config.keyOor = .fault → ∀ i, i = .skp x ∨ i = .sknp x →
      ∃ t, exec i s = .next t ∧ t.report = some (.error (.address .key (s.getV x).toNat)) ∧ t.errorMark = true ∧
        Frame (fun p => p = .mark) s t) ∧
    (∀ held, (s.config.keyOor = .mask ∧ (∃ k : Fin 16, k.val = (s.getV x).toNat % 16 ∧ s.isPressed k = held)) ∨
        (s.config.keyOor = .notPressed ∧ held = false) →
      (∃ t, exec (.skp x) s = .next t ∧ t.report = some .done ∧
        t.pc = (if held = true then s.pc + 2#16 else s.pc) ∧ Frame (fun p => p = .pc) s t) ∧
      (∃ t, exec (.sknp x) s = .next t ∧ t.report = some .done ∧
        t.pc = (if held = true then s.pc else s.pc + 2#16) ∧ Frame (fun p => p = .pc) s t))

/-- 45_keypad_timers.md R226: LD Vx,K with some key held stores the lowest held key's code and goes on, at the first
execution too (decision D12, log entry 12). -/
def Obligations.WaitForKeyTakesTheLowestHeldKey : Prop :=
  ∀ (x : Nibble) (s : State) (k : Fin 16), s.isPressed k = true → (∀ q : Fin 16, q < k → s.isPressed q = false) →
    ∃ t, exec (.ldRegKey x) s = .next t ∧ t.report = some .done ∧ (t.getV x).toNat = k.val ∧
      Frame (fun p => p = .reg x) s t

/-- 45_keypad_timers.md R226 (d): an ITICK that holds on LD Vx,K returns Done and leaves the whole state but WAIT exactly as it
was (decision D12, log entry 12). -/
def Obligations.HoldingTickChangesOnlyWait : Prop :=
  ∀ (x : Nibble) (s : State), s.canFetch → decode s.wordAtPc = .instr (.ldRegKey x) →
    (∀ k, s.isPressed k = false) →
    iTick s = .next { s with wait := .awaitingKey x, report := some .done }

/-- 45_keypad_timers.md R230, R231: LD Vx,DT and LD DT,Vx (the encodings are the spec's decision D1, log entry 1). -/
def Obligations.DelayTimerIsReadAndWritten : Prop :=
  ∀ x : Nibble,
    decode (BitVec.ofNat 16 (0xF007 + 256 * x.toNat)) = .instr (.ldRegDt x) ∧
    decode (BitVec.ofNat 16 (0xF015 + 256 * x.toNat)) = .instr (.ldDtReg x) ∧
    ∀ s : State,
      (∃ t, exec (.ldRegDt x) s = .next t ∧ t.report = some .done ∧ t.getV x = s.dt ∧
        Frame (fun p => p = .reg x) s t) ∧
      (∃ t, exec (.ldDtReg x) s = .next t ∧ t.report = some .done ∧ t.dt = s.getV x ∧
        Frame (fun p => p = .delay) s t)

/-- 45_keypad_timers.md R232: LD ST,Vx writes ST, which sets the tone's level; no instruction reads ST back: two states that
differ in ST alone end, by any instruction but LD ST,Vx, in states that differ in ST alone (the encoding is the spec's
decision D1, log entry 1). -/
def Obligations.SoundTimerIsWrittenAndNeverRead : Prop :=
  (∀ x : Nibble,
    decode (BitVec.ofNat 16 (0xF018 + 256 * x.toNat)) = .instr (.ldStReg x) ∧
    ∀ s : State, ∃ t, exec (.ldStReg x) s = .next t ∧ t.report = some .done ∧ t.st = s.getV x ∧
      (t.tone = true ↔ s.getV x ≠ 0#8) ∧ Frame (fun p => p = .sound) s t) ∧
  (∀ (i : Instr) (s t : State) (b : Byte), (¬ ∃ x, i = .ldStReg x) → exec i s = .next t →
    exec i { s with st := b } = .next { t with st := b })

/-- 45_keypad_timers.md R233: n TTICKs take each timer down by n, saturating at 0, and change nothing else. -/
def Obligations.TimerTicksSaturateAtZero : Prop :=
  ∀ (n : Nat) (s : State), ∃ t, performAll (List.replicate n .ttick) s = .next t ∧
    t.dt.toNat = s.dt.toNat - n ∧ t.st.toNat = s.st.toNat - n ∧ t.report = s.report ∧
    Frame (fun p => p ∈ [.delay, .sound]) s t

/-- 45_keypad_timers.md R221, R222: KEY_PRESS and KEY_RELEASE. -/
def Obligations.KeyCommandsWriteOneFlag : Prop :=
  ∀ (s : State) (k : Fin 16),
    (∃ t, perform (.keyPress k) s = .next t ∧ t.isPressed k = true ∧ t.report = s.report ∧
      Frame (fun p => p = .key k) s t) ∧
    (∃ t, perform (.keyRelease k) s = .next t ∧ t.isPressed k = false ∧ t.report = s.report ∧
      Frame (fun p => p = .key k) s t)

/-! ## Power-on, reset and load -/

/-- 10_state.md R38, 70_reset_and_hazards.md R280: POWER_ON makes every element zero, the font not yet installed. -/
def Obligations.PowerOnIsAllZero : Prop :=
  ∀ s : State,
    ∃ t, perform .powerOn s = .next t ∧ (∀ r, t.getV r = 0#8) ∧ t.i = 0#16 ∧ t.pc = 0#16 ∧ t.sp = 0 ∧
      (∀ k : Fin 16, t.stack[k] = 0#16) ∧ t.dt = 0#8 ∧ t.st = 0#8 ∧ (∀ a, a < 4096 → t.readByte a = 0#8) ∧
      (∀ row col, t.pixel row col = false) ∧ (∀ k, t.isPressed k = false) ∧ t.wait = .running

/-- 10_state.md R37, 70_reset_and_hazards.md R281: RESET from any state: zero, FONT at 0x000 to 0x04F, PC at 0x200, KEY as
it was (PC, I, SP, KEY and WAIT are the spec's decision D13, log entry 13; FONT is a parameter, any 80
bytes, D6, log entry 6). -/
def Obligations.ResetCommandValues : Prop :=
  ∀ (s : State) (rest : List Command), s.schedule = .reset :: rest →
    ∃ t, step s = .next t ∧ (∀ r, t.getV r = 0#8) ∧ t.i = 0#16 ∧ t.pc = 0x200#16 ∧ t.sp = 0 ∧
      (∀ k : Fin 16, t.stack[k] = 0#16) ∧ t.dt = 0#8 ∧ t.st = 0#8 ∧
      (∀ (a : Nat) (h : a < 80), t.readByte a = s.config.font[a]) ∧ (∀ a, 80 ≤ a → a < 4096 → t.readByte a = 0#8) ∧
      (∀ row col, t.pixel row col = false) ∧ (∀ k, t.isPressed k = s.isPressed k) ∧ t.wait = .running ∧
      t.schedule = rest

/-- 70_reset_and_hazards.md R282: LOAD of at most 3584 bytes places them at 0x200 upward and changes nothing else; a longer
image has no move (decision D16, log entry 16). -/
def Obligations.LoadPlacesTheImage : Prop :=
  ∀ (s : State) (image : List Byte) (rest : List Command), s.schedule = .load image :: rest → s.memWf →
    (image.length ≤ 3584 → ∃ t, step s = .next t ∧
      (∀ k (h : k < image.length), t.readByte (0x200 + k) = image[k]) ∧ t.report = s.report ∧
      Frame (fun p => ∃ a, inRange 0x200 image.length a ∧ p = .cell a) { s with schedule := rest } t) ∧
    (3584 < image.length → step s = .refused (.oversizedLoad image.length))

/-- 10_state.md R33, R37: the state right after reset, for every value of the parameters, any 80 bytes of FONT among them
(PC, I, SP and WAIT are the spec's decision D13, no key held the model's reading
of R283, the model's own fields its choice; log entries 8, 13, 17, 18, 19). -/
def Obligations.ResetStateValues : Prop :=
  State.reset = State.resetWith params ∧
  ∀ (p : Params) (r : State), r = State.resetWith p →
    (∀ q, r.getV q = 0#8) ∧ r.i = 0#16 ∧ r.pc = 0x200#16 ∧ r.sp = 0 ∧
    (∀ k : Fin 16, r.stack[k] = 0#16) ∧ r.dt = 0#8 ∧ r.st = 0#8 ∧
    (∀ (a : Nat) (h : a < 80), r.readByte a = p.font[a]) ∧ (∀ a, 80 ≤ a → r.readByte a = 0#8) ∧
    (∀ row col, r.pixel row col = false) ∧ (∀ k, r.isPressed k = false) ∧ r.wait = .running

/-! ## Invariants -/

/-- Log entries 21, 25, 20_memory.md R50, 00_scope.md R6: every step, host commands included, keeps the parameters, and keeps
memory in its canonical form, all of it below 4096. -/
def Obligations.EveryStepKeepsMemoryCanonical : Prop :=
  ∀ s t : State, step s = .next t → t.config = s.config ∧ (s.memWf → t.memWf)

/-- 10_state.md R25: every step keeps PC at most 0x10FE and every stack slot at most 0x1000. -/
def Obligations.EveryStepKeepsThePcBounded : Prop :=
  ∀ s t : State, s.pcBounded → step s = .next t → t.pcBounded

/-- 60_exceptions.md R258: the fault mark is set by every reported AddressError and StackError and no step clears it (log
entries 8, 26). -/
def Obligations.TheErrorMarkIsNeverCleared : Prop :=
  ∀ s t : State, step s = .next t →
    (s.errorMark = true → t.errorMark = true) ∧
    (s.errorMark = false → t.errorMark = true → ∃ e, t.report = some (.error e)) ∧
    ((nextCommand s).1 = .itick → (∃ e, t.report = some (.error e)) → t.errorMark = true)

/-- The invariants above hold in the reset state, for every value of the parameters. -/
def Obligations.ResetStateMeetsTheInvariants : Prop :=
  (State.reset.memWf ∧ State.reset.pcBounded ∧ State.reset.noError) ∧
  ∀ p : Params, (State.resetWith p).memWf ∧ (State.resetWith p).pcBounded ∧ (State.resetWith p).noError
end

