-- ==== Sys2Proof/Laws/Decode.lean ====
section
/-! SUPPORT. The opcode map's rows: which row a word decodes by, and the fields of a word built from its nibbles. -/

namespace Sys2Proof

/-- The map has the 34 rows of 30_encoding.md R85. -/
theorem opcodeMap_length : opcodeMap.length = 34 := rfl

/-! ### The families answer an instruction or the word itself as unknown -/

/-- What a decode is: an instruction, or the word reported unknown. -/
theorem decode_cases (w : Word) : (∃ i, decode w = .instr i) ∨ decode w = .unknown w := by
  unfold decode decodeFamilyZero decodeLowZero decodeFamilyEight decodeFamilyE decodeFamilyF
  repeat' split
  all_goals first | exact .inr rfl | exact .inl ⟨_, rfl⟩

/-! ### Words built from their nibbles, and the fields of each format (30_encoding.md R81, R82) -/

theorem wordNnn_toNat (op : Nibble) (a : Addr) : (wordNnn op a).toNat = op.toNat * 4096 + a.toNat := by
  have h := BitVec.toNat_append op a
  rw [← Nat.shiftLeft_add_eq_or_of_lt a.isLt, Nat.shiftLeft_eq] at h
  exact h

theorem wordXkk_toNat (op x : Nibble) (kk : Byte) :
    (wordXkk op x kk).toNat = op.toNat * 4096 + x.toNat * 256 + kk.toNat := by
  have h := BitVec.toNat_append (op ++ x) kk
  have h2 := BitVec.toNat_append op x
  rw [← Nat.shiftLeft_add_eq_or_of_lt kk.isLt, Nat.shiftLeft_eq] at h
  rw [← Nat.shiftLeft_add_eq_or_of_lt x.isLt, Nat.shiftLeft_eq] at h2
  refine h.trans ?_
  omega

theorem wordXyn_toNat (op x y n : Nibble) :
    (wordXyn op x y n).toNat = op.toNat * 4096 + x.toNat * 256 + y.toNat * 16 + n.toNat := by
  have h := BitVec.toNat_append (op ++ x ++ y) n
  have h2 := BitVec.toNat_append (op ++ x) y
  have h3 := BitVec.toNat_append op x
  rw [← Nat.shiftLeft_add_eq_or_of_lt n.isLt, Nat.shiftLeft_eq] at h
  rw [← Nat.shiftLeft_add_eq_or_of_lt y.isLt, Nat.shiftLeft_eq] at h2
  rw [← Nat.shiftLeft_add_eq_or_of_lt x.isLt, Nat.shiftLeft_eq] at h3
  refine h.trans ?_
  omega

theorem opField_toNat (w : Word) : (opField w).toNat = w.toNat / 4096 := by
  have := w.isLt
  simp only [opField, BitVec.extractLsb'_toNat, Nat.shiftRight_eq_div_pow]
  omega

theorem xField_toNat (w : Word) : (xField w).toNat = w.toNat / 256 % 16 := by
  simp only [xField, BitVec.extractLsb'_toNat, Nat.shiftRight_eq_div_pow]

theorem yField_toNat (w : Word) : (yField w).toNat = w.toNat / 16 % 16 := by
  simp only [yField, BitVec.extractLsb'_toNat, Nat.shiftRight_eq_div_pow]

theorem nField_toNat (w : Word) : (nField w).toNat = w.toNat % 16 := by
  simp only [nField, BitVec.extractLsb'_toNat, Nat.shiftRight_eq_div_pow]
  omega

theorem kkField_toNat (w : Word) : (kkField w).toNat = w.toNat % 256 := by
  simp only [kkField, BitVec.extractLsb'_toNat, Nat.shiftRight_eq_div_pow]
  omega

theorem nnnField_toNat (w : Word) : (nnnField w).toNat = w.toNat % 4096 := by
  simp only [nnnField, BitVec.extractLsb'_toNat, Nat.shiftRight_eq_div_pow]
  omega

@[simp] theorem opField_wordNnn (op : Nibble) (a : Addr) : opField (wordNnn op a) = op := by
  have := a.isLt
  apply BitVec.eq_of_toNat_eq
  rw [opField_toNat, wordNnn_toNat]
  omega

@[simp] theorem nnnField_wordNnn (op : Nibble) (a : Addr) : nnnField (wordNnn op a) = a := by
  have := a.isLt
  apply BitVec.eq_of_toNat_eq
  rw [nnnField_toNat, wordNnn_toNat]
  omega

@[simp] theorem opField_wordXkk (op x : Nibble) (kk : Byte) : opField (wordXkk op x kk) = op := by
  have := x.isLt
  have := kk.isLt
  apply BitVec.eq_of_toNat_eq
  rw [opField_toNat, wordXkk_toNat]
  omega

@[simp] theorem xField_wordXkk (op x : Nibble) (kk : Byte) : xField (wordXkk op x kk) = x := by
  have := x.isLt
  have := kk.isLt
  apply BitVec.eq_of_toNat_eq
  rw [xField_toNat, wordXkk_toNat]
  omega

@[simp] theorem kkField_wordXkk (op x : Nibble) (kk : Byte) : kkField (wordXkk op x kk) = kk := by
  have := kk.isLt
  apply BitVec.eq_of_toNat_eq
  rw [kkField_toNat, wordXkk_toNat]
  omega

@[simp] theorem opField_wordXyn (op x y n : Nibble) : opField (wordXyn op x y n) = op := by
  have := x.isLt
  have := y.isLt
  have := n.isLt
  apply BitVec.eq_of_toNat_eq
  rw [opField_toNat, wordXyn_toNat]
  omega

@[simp] theorem xField_wordXyn (op x y n : Nibble) : xField (wordXyn op x y n) = x := by
  have := x.isLt
  have := y.isLt
  have := n.isLt
  apply BitVec.eq_of_toNat_eq
  rw [xField_toNat, wordXyn_toNat]
  omega

@[simp] theorem yField_wordXyn (op x y n : Nibble) : yField (wordXyn op x y n) = y := by
  have := y.isLt
  have := n.isLt
  apply BitVec.eq_of_toNat_eq
  rw [yField_toNat, wordXyn_toNat]
  omega

@[simp] theorem nField_wordXyn (op x y n : Nibble) : nField (wordXyn op x y n) = n := by
  have := n.isLt
  apply BitVec.eq_of_toNat_eq
  rw [nField_toNat, wordXyn_toNat]
  omega

/-! ### The masks of the map on such words (30_encoding.md R85) -/

theorem wordNnn_getLsbD (op : Nibble) (a : Addr) (k : Nat) :
    (wordNnn op a).getLsbD k = if k < 12 then a.getLsbD k else op.getLsbD (k - 12) := by
  have h := BitVec.getLsbD_append (x := op) (y := a) (i := k)
  exact h.trans (by split <;> simp_all)

theorem wordXkk_getLsbD (op x : Nibble) (kk : Byte) (k : Nat) :
    (wordXkk op x kk).getLsbD k =
      if k < 8 then kk.getLsbD k else if k - 8 < 4 then x.getLsbD (k - 8) else op.getLsbD (k - 8 - 4) := by
  have h := BitVec.getLsbD_append (x := op ++ x) (y := kk) (i := k)
  have h2 := BitVec.getLsbD_append (x := op) (y := x) (i := k - 8)
  rw [h2] at h
  exact h.trans (by split <;> simp_all)

theorem wordXyn_getLsbD (op x y n : Nibble) (k : Nat) :
    (wordXyn op x y n).getLsbD k =
      if k < 4 then n.getLsbD k else if k - 4 < 4 then y.getLsbD (k - 4)
      else if k - 4 - 4 < 4 then x.getLsbD (k - 4 - 4) else op.getLsbD (k - 4 - 4 - 4) := by
  have h := BitVec.getLsbD_append (x := op ++ x ++ y) (y := n) (i := k)
  have h2 := BitVec.getLsbD_append (x := op ++ x) (y := y) (i := k - 4)
  have h3 := BitVec.getLsbD_append (x := op) (y := x) (i := k - 4 - 4)
  rw [h2, h3] at h
  exact h.trans (by split <;> simp_all)

theorem wordNnn_mask (op : Nibble) (a : Addr) : wordNnn op a &&& 0xF000#16 = wordNnn op 0#12 := by
  apply BitVec.eq_of_getLsbD_eq
  intro k hk
  rw [BitVec.getLsbD_and, wordNnn_getLsbD, wordNnn_getLsbD]
  interval_cases k <;> simp

theorem wordXkk_mask (op x : Nibble) (kk : Byte) : wordXkk op x kk &&& 0xF000#16 = wordXkk op 0#4 0#8 := by
  apply BitVec.eq_of_getLsbD_eq
  intro k hk
  rw [BitVec.getLsbD_and, wordXkk_getLsbD, wordXkk_getLsbD]
  interval_cases k <;> simp

theorem wordXkk_maskLow (op x : Nibble) (kk : Byte) : wordXkk op x kk &&& 0xF0FF#16 = wordXkk op 0#4 kk := by
  apply BitVec.eq_of_getLsbD_eq
  intro k hk
  rw [BitVec.getLsbD_and, wordXkk_getLsbD, wordXkk_getLsbD]
  interval_cases k <;> simp

theorem wordXyn_mask (op x y n : Nibble) : wordXyn op x y n &&& 0xF000#16 = wordXyn op 0#4 0#4 0#4 := by
  apply BitVec.eq_of_getLsbD_eq
  intro k hk
  rw [BitVec.getLsbD_and, wordXyn_getLsbD, wordXyn_getLsbD]
  interval_cases k <;> simp

theorem wordXyn_maskLow (op x y n : Nibble) : wordXyn op x y n &&& 0xF00F#16 = wordXyn op 0#4 0#4 n := by
  apply BitVec.eq_of_getLsbD_eq
  intro k hk
  rw [BitVec.getLsbD_and, wordXyn_getLsbD, wordXyn_getLsbD]
  interval_cases k <;> simp

/-! ### Bytes and words (20_memory.md R53) -/

@[simp] theorem wordOfBytes_high_low (w : Word) : wordOfBytes (highByte w) (lowByte w) = w := by
  unfold wordOfBytes highByte lowByte
  ext k hk
  simp only [BitVec.getElem_append, BitVec.getElem_extractLsb']
  split
  · simp [BitVec.getLsbD_eq_getElem hk]
  · rw [show 8 + (k - 8) = k by omega, BitVec.getLsbD_eq_getElem hk]

/-- The bits of a word of two bytes: the low byte's, then the high byte's. -/
theorem wordOfBytes_getLsbD (hi lo : Byte) (k : Nat) :
    (wordOfBytes hi lo).getLsbD k = if k < 8 then lo.getLsbD k else hi.getLsbD (k - 8) := by
  have h := BitVec.getLsbD_append (x := hi) (y := lo) (i := k)
  exact h.trans (by split <;> simp_all)

@[simp] theorem highByte_wordOfBytes (hi lo : Byte) : highByte (wordOfBytes hi lo) = hi := by
  unfold highByte
  ext k hk
  rw [BitVec.getElem_extractLsb', wordOfBytes_getLsbD, if_neg (by omega), Nat.add_sub_cancel_left,
    BitVec.getLsbD_eq_getElem hk]

@[simp] theorem lowByte_wordOfBytes (hi lo : Byte) : lowByte (wordOfBytes hi lo) = lo := by
  unfold lowByte
  ext k hk
  rw [BitVec.getElem_extractLsb', wordOfBytes_getLsbD, Nat.zero_add, if_pos hk, BitVec.getLsbD_eq_getElem hk]

/-- The byte decoder on an instruction's own two bytes is the decoder on its word. -/
theorem decodeBytes_encodeBytes (i : Instr) (rest : List Byte) :
    decodeBytes (encodeBytes i ++ rest) = some (decode (encode i), rest) := by
  simp [encodeBytes, decodeBytes]

end Sys2Proof
end

