-- ==== Sys2Proof/Laws/State.lean ====
section
/-! SUPPORT. The state record's small lemmas: one per field per update, each true by rfl, and what the accessors read
after an update. Later proofs rewrite with these and unfold no record update. -/

namespace Sys2Proof.Machine

/-! ### setV -/

@[simp] theorem State.setV_v (s : State) (x : Nibble) (b : Byte) : (s.setV x b).v = s.v.set x.toNat b x.isLt := rfl
@[simp] theorem State.setV_i (s : State) (x : Nibble) (b : Byte) : (s.setV x b).i = s.i := rfl
@[simp] theorem State.setV_pc (s : State) (x : Nibble) (b : Byte) : (s.setV x b).pc = s.pc := rfl
@[simp] theorem State.setV_stack (s : State) (x : Nibble) (b : Byte) : (s.setV x b).stack = s.stack := rfl
@[simp] theorem State.setV_sp (s : State) (x : Nibble) (b : Byte) : (s.setV x b).sp = s.sp := rfl
@[simp] theorem State.setV_dt (s : State) (x : Nibble) (b : Byte) : (s.setV x b).dt = s.dt := rfl
@[simp] theorem State.setV_st (s : State) (x : Nibble) (b : Byte) : (s.setV x b).st = s.st := rfl
@[simp] theorem State.setV_mem (s : State) (x : Nibble) (b : Byte) : (s.setV x b).mem = s.mem := rfl
@[simp] theorem State.setV_fb (s : State) (x : Nibble) (b : Byte) : (s.setV x b).fb = s.fb := rfl
@[simp] theorem State.setV_key (s : State) (x : Nibble) (b : Byte) : (s.setV x b).key = s.key := rfl
@[simp] theorem State.setV_wait (s : State) (x : Nibble) (b : Byte) : (s.setV x b).wait = s.wait := rfl
@[simp] theorem State.setV_schedule (s : State) (x : Nibble) (b : Byte) : (s.setV x b).schedule = s.schedule := rfl
@[simp] theorem State.setV_draws (s : State) (x : Nibble) (b : Byte) : (s.setV x b).draws = s.draws := rfl
@[simp] theorem State.setV_report (s : State) (x : Nibble) (b : Byte) : (s.setV x b).report = s.report := rfl
@[simp] theorem State.setV_errorMark (s : State) (x : Nibble) (b : Byte) : (s.setV x b).errorMark = s.errorMark := rfl
@[simp] theorem State.setV_config (s : State) (x : Nibble) (b : Byte) : (s.setV x b).config = s.config := rfl

@[simp] theorem State.setV_readByte (s : State) (x : Nibble) (b : Byte) (q : Nat) : (s.setV x b).readByte q = s.readByte q := rfl
@[simp] theorem State.setV_pixel (s : State) (x : Nibble) (b : Byte) (r : Fin 32) (c : Fin 64) : (s.setV x b).pixel r c = s.pixel r c := rfl
@[simp] theorem State.setV_isPressed (s : State) (x : Nibble) (b : Byte) (q : Fin 16) : (s.setV x b).isPressed q = s.isPressed q := rfl

/-! ### setI -/

@[simp] theorem State.setI_v (s : State) (a : Word) : (s.setI a).v = s.v := rfl
@[simp] theorem State.setI_i (s : State) (a : Word) : (s.setI a).i = a := rfl
@[simp] theorem State.setI_pc (s : State) (a : Word) : (s.setI a).pc = s.pc := rfl
@[simp] theorem State.setI_stack (s : State) (a : Word) : (s.setI a).stack = s.stack := rfl
@[simp] theorem State.setI_sp (s : State) (a : Word) : (s.setI a).sp = s.sp := rfl
@[simp] theorem State.setI_dt (s : State) (a : Word) : (s.setI a).dt = s.dt := rfl
@[simp] theorem State.setI_st (s : State) (a : Word) : (s.setI a).st = s.st := rfl
@[simp] theorem State.setI_mem (s : State) (a : Word) : (s.setI a).mem = s.mem := rfl
@[simp] theorem State.setI_fb (s : State) (a : Word) : (s.setI a).fb = s.fb := rfl
@[simp] theorem State.setI_key (s : State) (a : Word) : (s.setI a).key = s.key := rfl
@[simp] theorem State.setI_wait (s : State) (a : Word) : (s.setI a).wait = s.wait := rfl
@[simp] theorem State.setI_schedule (s : State) (a : Word) : (s.setI a).schedule = s.schedule := rfl
@[simp] theorem State.setI_draws (s : State) (a : Word) : (s.setI a).draws = s.draws := rfl
@[simp] theorem State.setI_report (s : State) (a : Word) : (s.setI a).report = s.report := rfl
@[simp] theorem State.setI_errorMark (s : State) (a : Word) : (s.setI a).errorMark = s.errorMark := rfl
@[simp] theorem State.setI_config (s : State) (a : Word) : (s.setI a).config = s.config := rfl

@[simp] theorem State.setI_getV (s : State) (a : Word) (r : Nibble) : (s.setI a).getV r = s.getV r := rfl
@[simp] theorem State.setI_readByte (s : State) (a : Word) (q : Nat) : (s.setI a).readByte q = s.readByte q := rfl
@[simp] theorem State.setI_pixel (s : State) (a : Word) (r : Fin 32) (c : Fin 64) : (s.setI a).pixel r c = s.pixel r c := rfl
@[simp] theorem State.setI_isPressed (s : State) (a : Word) (q : Fin 16) : (s.setI a).isPressed q = s.isPressed q := rfl

/-! ### setPc -/

@[simp] theorem State.setPc_v (s : State) (a : Word) : (s.setPc a).v = s.v := rfl
@[simp] theorem State.setPc_i (s : State) (a : Word) : (s.setPc a).i = s.i := rfl
@[simp] theorem State.setPc_pc (s : State) (a : Word) : (s.setPc a).pc = a := rfl
@[simp] theorem State.setPc_stack (s : State) (a : Word) : (s.setPc a).stack = s.stack := rfl
@[simp] theorem State.setPc_sp (s : State) (a : Word) : (s.setPc a).sp = s.sp := rfl
@[simp] theorem State.setPc_dt (s : State) (a : Word) : (s.setPc a).dt = s.dt := rfl
@[simp] theorem State.setPc_st (s : State) (a : Word) : (s.setPc a).st = s.st := rfl
@[simp] theorem State.setPc_mem (s : State) (a : Word) : (s.setPc a).mem = s.mem := rfl
@[simp] theorem State.setPc_fb (s : State) (a : Word) : (s.setPc a).fb = s.fb := rfl
@[simp] theorem State.setPc_key (s : State) (a : Word) : (s.setPc a).key = s.key := rfl
@[simp] theorem State.setPc_wait (s : State) (a : Word) : (s.setPc a).wait = s.wait := rfl
@[simp] theorem State.setPc_schedule (s : State) (a : Word) : (s.setPc a).schedule = s.schedule := rfl
@[simp] theorem State.setPc_draws (s : State) (a : Word) : (s.setPc a).draws = s.draws := rfl
@[simp] theorem State.setPc_report (s : State) (a : Word) : (s.setPc a).report = s.report := rfl
@[simp] theorem State.setPc_errorMark (s : State) (a : Word) : (s.setPc a).errorMark = s.errorMark := rfl
@[simp] theorem State.setPc_config (s : State) (a : Word) : (s.setPc a).config = s.config := rfl

@[simp] theorem State.setPc_getV (s : State) (a : Word) (r : Nibble) : (s.setPc a).getV r = s.getV r := rfl
@[simp] theorem State.setPc_readByte (s : State) (a : Word) (q : Nat) : (s.setPc a).readByte q = s.readByte q := rfl
@[simp] theorem State.setPc_pixel (s : State) (a : Word) (r : Fin 32) (c : Fin 64) : (s.setPc a).pixel r c = s.pixel r c := rfl
@[simp] theorem State.setPc_isPressed (s : State) (a : Word) (q : Fin 16) : (s.setPc a).isPressed q = s.isPressed q := rfl

/-! ### setDt -/

@[simp] theorem State.setDt_v (s : State) (b : Byte) : (s.setDt b).v = s.v := rfl
@[simp] theorem State.setDt_i (s : State) (b : Byte) : (s.setDt b).i = s.i := rfl
@[simp] theorem State.setDt_pc (s : State) (b : Byte) : (s.setDt b).pc = s.pc := rfl
@[simp] theorem State.setDt_stack (s : State) (b : Byte) : (s.setDt b).stack = s.stack := rfl
@[simp] theorem State.setDt_sp (s : State) (b : Byte) : (s.setDt b).sp = s.sp := rfl
@[simp] theorem State.setDt_dt (s : State) (b : Byte) : (s.setDt b).dt = b := rfl
@[simp] theorem State.setDt_st (s : State) (b : Byte) : (s.setDt b).st = s.st := rfl
@[simp] theorem State.setDt_mem (s : State) (b : Byte) : (s.setDt b).mem = s.mem := rfl
@[simp] theorem State.setDt_fb (s : State) (b : Byte) : (s.setDt b).fb = s.fb := rfl
@[simp] theorem State.setDt_key (s : State) (b : Byte) : (s.setDt b).key = s.key := rfl
@[simp] theorem State.setDt_wait (s : State) (b : Byte) : (s.setDt b).wait = s.wait := rfl
@[simp] theorem State.setDt_schedule (s : State) (b : Byte) : (s.setDt b).schedule = s.schedule := rfl
@[simp] theorem State.setDt_draws (s : State) (b : Byte) : (s.setDt b).draws = s.draws := rfl
@[simp] theorem State.setDt_report (s : State) (b : Byte) : (s.setDt b).report = s.report := rfl
@[simp] theorem State.setDt_errorMark (s : State) (b : Byte) : (s.setDt b).errorMark = s.errorMark := rfl
@[simp] theorem State.setDt_config (s : State) (b : Byte) : (s.setDt b).config = s.config := rfl

@[simp] theorem State.setDt_getV (s : State) (b : Byte) (r : Nibble) : (s.setDt b).getV r = s.getV r := rfl
@[simp] theorem State.setDt_readByte (s : State) (b : Byte) (q : Nat) : (s.setDt b).readByte q = s.readByte q := rfl
@[simp] theorem State.setDt_pixel (s : State) (b : Byte) (r : Fin 32) (c : Fin 64) : (s.setDt b).pixel r c = s.pixel r c := rfl
@[simp] theorem State.setDt_isPressed (s : State) (b : Byte) (q : Fin 16) : (s.setDt b).isPressed q = s.isPressed q := rfl

/-! ### setSt -/

@[simp] theorem State.setSt_v (s : State) (b : Byte) : (s.setSt b).v = s.v := rfl
@[simp] theorem State.setSt_i (s : State) (b : Byte) : (s.setSt b).i = s.i := rfl
@[simp] theorem State.setSt_pc (s : State) (b : Byte) : (s.setSt b).pc = s.pc := rfl
@[simp] theorem State.setSt_stack (s : State) (b : Byte) : (s.setSt b).stack = s.stack := rfl
@[simp] theorem State.setSt_sp (s : State) (b : Byte) : (s.setSt b).sp = s.sp := rfl
@[simp] theorem State.setSt_dt (s : State) (b : Byte) : (s.setSt b).dt = s.dt := rfl
@[simp] theorem State.setSt_st (s : State) (b : Byte) : (s.setSt b).st = b := rfl
@[simp] theorem State.setSt_mem (s : State) (b : Byte) : (s.setSt b).mem = s.mem := rfl
@[simp] theorem State.setSt_fb (s : State) (b : Byte) : (s.setSt b).fb = s.fb := rfl
@[simp] theorem State.setSt_key (s : State) (b : Byte) : (s.setSt b).key = s.key := rfl
@[simp] theorem State.setSt_wait (s : State) (b : Byte) : (s.setSt b).wait = s.wait := rfl
@[simp] theorem State.setSt_schedule (s : State) (b : Byte) : (s.setSt b).schedule = s.schedule := rfl
@[simp] theorem State.setSt_draws (s : State) (b : Byte) : (s.setSt b).draws = s.draws := rfl
@[simp] theorem State.setSt_report (s : State) (b : Byte) : (s.setSt b).report = s.report := rfl
@[simp] theorem State.setSt_errorMark (s : State) (b : Byte) : (s.setSt b).errorMark = s.errorMark := rfl
@[simp] theorem State.setSt_config (s : State) (b : Byte) : (s.setSt b).config = s.config := rfl

@[simp] theorem State.setSt_getV (s : State) (b : Byte) (r : Nibble) : (s.setSt b).getV r = s.getV r := rfl
@[simp] theorem State.setSt_readByte (s : State) (b : Byte) (q : Nat) : (s.setSt b).readByte q = s.readByte q := rfl
@[simp] theorem State.setSt_pixel (s : State) (b : Byte) (r : Fin 32) (c : Fin 64) : (s.setSt b).pixel r c = s.pixel r c := rfl
@[simp] theorem State.setSt_isPressed (s : State) (b : Byte) (q : Fin 16) : (s.setSt b).isPressed q = s.isPressed q := rfl

/-! ### setFb -/

@[simp] theorem State.setFb_v (s : State) (f : Screen) : (s.setFb f).v = s.v := rfl
@[simp] theorem State.setFb_i (s : State) (f : Screen) : (s.setFb f).i = s.i := rfl
@[simp] theorem State.setFb_pc (s : State) (f : Screen) : (s.setFb f).pc = s.pc := rfl
@[simp] theorem State.setFb_stack (s : State) (f : Screen) : (s.setFb f).stack = s.stack := rfl
@[simp] theorem State.setFb_sp (s : State) (f : Screen) : (s.setFb f).sp = s.sp := rfl
@[simp] theorem State.setFb_dt (s : State) (f : Screen) : (s.setFb f).dt = s.dt := rfl
@[simp] theorem State.setFb_st (s : State) (f : Screen) : (s.setFb f).st = s.st := rfl
@[simp] theorem State.setFb_mem (s : State) (f : Screen) : (s.setFb f).mem = s.mem := rfl
@[simp] theorem State.setFb_fb (s : State) (f : Screen) : (s.setFb f).fb = f := rfl
@[simp] theorem State.setFb_key (s : State) (f : Screen) : (s.setFb f).key = s.key := rfl
@[simp] theorem State.setFb_wait (s : State) (f : Screen) : (s.setFb f).wait = s.wait := rfl
@[simp] theorem State.setFb_schedule (s : State) (f : Screen) : (s.setFb f).schedule = s.schedule := rfl
@[simp] theorem State.setFb_draws (s : State) (f : Screen) : (s.setFb f).draws = s.draws := rfl
@[simp] theorem State.setFb_report (s : State) (f : Screen) : (s.setFb f).report = s.report := rfl
@[simp] theorem State.setFb_errorMark (s : State) (f : Screen) : (s.setFb f).errorMark = s.errorMark := rfl
@[simp] theorem State.setFb_config (s : State) (f : Screen) : (s.setFb f).config = s.config := rfl

@[simp] theorem State.setFb_getV (s : State) (f : Screen) (r : Nibble) : (s.setFb f).getV r = s.getV r := rfl
@[simp] theorem State.setFb_readByte (s : State) (f : Screen) (q : Nat) : (s.setFb f).readByte q = s.readByte q := rfl
@[simp] theorem State.setFb_isPressed (s : State) (f : Screen) (q : Fin 16) : (s.setFb f).isPressed q = s.isPressed q := rfl

/-! ### setKey -/

@[simp] theorem State.setKey_v (s : State) (k : Fin 16) (b : Bool) : (s.setKey k b).v = s.v := rfl
@[simp] theorem State.setKey_i (s : State) (k : Fin 16) (b : Bool) : (s.setKey k b).i = s.i := rfl
@[simp] theorem State.setKey_pc (s : State) (k : Fin 16) (b : Bool) : (s.setKey k b).pc = s.pc := rfl
@[simp] theorem State.setKey_stack (s : State) (k : Fin 16) (b : Bool) : (s.setKey k b).stack = s.stack := rfl
@[simp] theorem State.setKey_sp (s : State) (k : Fin 16) (b : Bool) : (s.setKey k b).sp = s.sp := rfl
@[simp] theorem State.setKey_dt (s : State) (k : Fin 16) (b : Bool) : (s.setKey k b).dt = s.dt := rfl
@[simp] theorem State.setKey_st (s : State) (k : Fin 16) (b : Bool) : (s.setKey k b).st = s.st := rfl
@[simp] theorem State.setKey_mem (s : State) (k : Fin 16) (b : Bool) : (s.setKey k b).mem = s.mem := rfl
@[simp] theorem State.setKey_fb (s : State) (k : Fin 16) (b : Bool) : (s.setKey k b).fb = s.fb := rfl
@[simp] theorem State.setKey_key (s : State) (k : Fin 16) (b : Bool) : (s.setKey k b).key = s.key.set k.val b k.isLt := rfl
@[simp] theorem State.setKey_wait (s : State) (k : Fin 16) (b : Bool) : (s.setKey k b).wait = s.wait := rfl
@[simp] theorem State.setKey_schedule (s : State) (k : Fin 16) (b : Bool) : (s.setKey k b).schedule = s.schedule := rfl
@[simp] theorem State.setKey_draws (s : State) (k : Fin 16) (b : Bool) : (s.setKey k b).draws = s.draws := rfl
@[simp] theorem State.setKey_report (s : State) (k : Fin 16) (b : Bool) : (s.setKey k b).report = s.report := rfl
@[simp] theorem State.setKey_errorMark (s : State) (k : Fin 16) (b : Bool) : (s.setKey k b).errorMark = s.errorMark := rfl
@[simp] theorem State.setKey_config (s : State) (k : Fin 16) (b : Bool) : (s.setKey k b).config = s.config := rfl

@[simp] theorem State.setKey_getV (s : State) (k : Fin 16) (b : Bool) (r : Nibble) : (s.setKey k b).getV r = s.getV r := rfl
@[simp] theorem State.setKey_readByte (s : State) (k : Fin 16) (b : Bool) (q : Nat) : (s.setKey k b).readByte q = s.readByte q := rfl
@[simp] theorem State.setKey_pixel (s : State) (k : Fin 16) (b : Bool) (r : Fin 32) (c : Fin 64) : (s.setKey k b).pixel r c = s.pixel r c := rfl

/-! ### setWait -/

@[simp] theorem State.setWait_v (s : State) (w : WaitStatus) : (s.setWait w).v = s.v := rfl
@[simp] theorem State.setWait_i (s : State) (w : WaitStatus) : (s.setWait w).i = s.i := rfl
@[simp] theorem State.setWait_pc (s : State) (w : WaitStatus) : (s.setWait w).pc = s.pc := rfl
@[simp] theorem State.setWait_stack (s : State) (w : WaitStatus) : (s.setWait w).stack = s.stack := rfl
@[simp] theorem State.setWait_sp (s : State) (w : WaitStatus) : (s.setWait w).sp = s.sp := rfl
@[simp] theorem State.setWait_dt (s : State) (w : WaitStatus) : (s.setWait w).dt = s.dt := rfl
@[simp] theorem State.setWait_st (s : State) (w : WaitStatus) : (s.setWait w).st = s.st := rfl
@[simp] theorem State.setWait_mem (s : State) (w : WaitStatus) : (s.setWait w).mem = s.mem := rfl
@[simp] theorem State.setWait_fb (s : State) (w : WaitStatus) : (s.setWait w).fb = s.fb := rfl
@[simp] theorem State.setWait_key (s : State) (w : WaitStatus) : (s.setWait w).key = s.key := rfl
@[simp] theorem State.setWait_wait (s : State) (w : WaitStatus) : (s.setWait w).wait = w := rfl
@[simp] theorem State.setWait_schedule (s : State) (w : WaitStatus) : (s.setWait w).schedule = s.schedule := rfl
@[simp] theorem State.setWait_draws (s : State) (w : WaitStatus) : (s.setWait w).draws = s.draws := rfl
@[simp] theorem State.setWait_report (s : State) (w : WaitStatus) : (s.setWait w).report = s.report := rfl
@[simp] theorem State.setWait_errorMark (s : State) (w : WaitStatus) : (s.setWait w).errorMark = s.errorMark := rfl
@[simp] theorem State.setWait_config (s : State) (w : WaitStatus) : (s.setWait w).config = s.config := rfl

@[simp] theorem State.setWait_getV (s : State) (w : WaitStatus) (r : Nibble) : (s.setWait w).getV r = s.getV r := rfl
@[simp] theorem State.setWait_readByte (s : State) (w : WaitStatus) (q : Nat) : (s.setWait w).readByte q = s.readByte q := rfl
@[simp] theorem State.setWait_pixel (s : State) (w : WaitStatus) (r : Fin 32) (c : Fin 64) : (s.setWait w).pixel r c = s.pixel r c := rfl
@[simp] theorem State.setWait_isPressed (s : State) (w : WaitStatus) (q : Fin 16) : (s.setWait w).isPressed q = s.isPressed q := rfl

/-! ### setMem -/

@[simp] theorem State.setMem_v (s : State) (m : Memory) : (s.setMem m).v = s.v := rfl
@[simp] theorem State.setMem_i (s : State) (m : Memory) : (s.setMem m).i = s.i := rfl
@[simp] theorem State.setMem_pc (s : State) (m : Memory) : (s.setMem m).pc = s.pc := rfl
@[simp] theorem State.setMem_stack (s : State) (m : Memory) : (s.setMem m).stack = s.stack := rfl
@[simp] theorem State.setMem_sp (s : State) (m : Memory) : (s.setMem m).sp = s.sp := rfl
@[simp] theorem State.setMem_dt (s : State) (m : Memory) : (s.setMem m).dt = s.dt := rfl
@[simp] theorem State.setMem_st (s : State) (m : Memory) : (s.setMem m).st = s.st := rfl
@[simp] theorem State.setMem_mem (s : State) (m : Memory) : (s.setMem m).mem = m := rfl
@[simp] theorem State.setMem_fb (s : State) (m : Memory) : (s.setMem m).fb = s.fb := rfl
@[simp] theorem State.setMem_key (s : State) (m : Memory) : (s.setMem m).key = s.key := rfl
@[simp] theorem State.setMem_wait (s : State) (m : Memory) : (s.setMem m).wait = s.wait := rfl
@[simp] theorem State.setMem_schedule (s : State) (m : Memory) : (s.setMem m).schedule = s.schedule := rfl
@[simp] theorem State.setMem_draws (s : State) (m : Memory) : (s.setMem m).draws = s.draws := rfl
@[simp] theorem State.setMem_report (s : State) (m : Memory) : (s.setMem m).report = s.report := rfl
@[simp] theorem State.setMem_errorMark (s : State) (m : Memory) : (s.setMem m).errorMark = s.errorMark := rfl
@[simp] theorem State.setMem_config (s : State) (m : Memory) : (s.setMem m).config = s.config := rfl

@[simp] theorem State.setMem_getV (s : State) (m : Memory) (r : Nibble) : (s.setMem m).getV r = s.getV r := rfl
@[simp] theorem State.setMem_pixel (s : State) (m : Memory) (r : Fin 32) (c : Fin 64) : (s.setMem m).pixel r c = s.pixel r c := rfl
@[simp] theorem State.setMem_isPressed (s : State) (m : Memory) (q : Fin 16) : (s.setMem m).isPressed q = s.isPressed q := rfl

/-! ### countDraw -/

@[simp] theorem State.countDraw_v (s : State) : s.countDraw.v = s.v := rfl
@[simp] theorem State.countDraw_i (s : State) : s.countDraw.i = s.i := rfl
@[simp] theorem State.countDraw_pc (s : State) : s.countDraw.pc = s.pc := rfl
@[simp] theorem State.countDraw_stack (s : State) : s.countDraw.stack = s.stack := rfl
@[simp] theorem State.countDraw_sp (s : State) : s.countDraw.sp = s.sp := rfl
@[simp] theorem State.countDraw_dt (s : State) : s.countDraw.dt = s.dt := rfl
@[simp] theorem State.countDraw_st (s : State) : s.countDraw.st = s.st := rfl
@[simp] theorem State.countDraw_mem (s : State) : s.countDraw.mem = s.mem := rfl
@[simp] theorem State.countDraw_fb (s : State) : s.countDraw.fb = s.fb := rfl
@[simp] theorem State.countDraw_key (s : State) : s.countDraw.key = s.key := rfl
@[simp] theorem State.countDraw_wait (s : State) : s.countDraw.wait = s.wait := rfl
@[simp] theorem State.countDraw_schedule (s : State) : s.countDraw.schedule = s.schedule := rfl
@[simp] theorem State.countDraw_draws (s : State) : s.countDraw.draws = s.draws + 1 := rfl
@[simp] theorem State.countDraw_report (s : State) : s.countDraw.report = s.report := rfl
@[simp] theorem State.countDraw_errorMark (s : State) : s.countDraw.errorMark = s.errorMark := rfl
@[simp] theorem State.countDraw_config (s : State) : s.countDraw.config = s.config := rfl

@[simp] theorem State.countDraw_getV (s : State) (r : Nibble) : s.countDraw.getV r = s.getV r := rfl
@[simp] theorem State.countDraw_readByte (s : State) (q : Nat) : s.countDraw.readByte q = s.readByte q := rfl
@[simp] theorem State.countDraw_pixel (s : State) (r : Fin 32) (c : Fin 64) : s.countDraw.pixel r c = s.pixel r c := rfl
@[simp] theorem State.countDraw_isPressed (s : State) (q : Fin 16) : s.countDraw.isPressed q = s.isPressed q := rfl

/-! ### complete -/

@[simp] theorem State.complete_v (s : State) : s.complete.v = s.v := rfl
@[simp] theorem State.complete_i (s : State) : s.complete.i = s.i := rfl
@[simp] theorem State.complete_pc (s : State) : s.complete.pc = s.pc := rfl
@[simp] theorem State.complete_stack (s : State) : s.complete.stack = s.stack := rfl
@[simp] theorem State.complete_sp (s : State) : s.complete.sp = s.sp := rfl
@[simp] theorem State.complete_dt (s : State) : s.complete.dt = s.dt := rfl
@[simp] theorem State.complete_st (s : State) : s.complete.st = s.st := rfl
@[simp] theorem State.complete_mem (s : State) : s.complete.mem = s.mem := rfl
@[simp] theorem State.complete_fb (s : State) : s.complete.fb = s.fb := rfl
@[simp] theorem State.complete_key (s : State) : s.complete.key = s.key := rfl
@[simp] theorem State.complete_wait (s : State) : s.complete.wait = s.wait := rfl
@[simp] theorem State.complete_schedule (s : State) : s.complete.schedule = s.schedule := rfl
@[simp] theorem State.complete_draws (s : State) : s.complete.draws = s.draws := rfl
@[simp] theorem State.complete_report (s : State) : s.complete.report = some .done := rfl
@[simp] theorem State.complete_errorMark (s : State) : s.complete.errorMark = s.errorMark := rfl
@[simp] theorem State.complete_config (s : State) : s.complete.config = s.config := rfl

@[simp] theorem State.complete_getV (s : State) (r : Nibble) : s.complete.getV r = s.getV r := rfl
@[simp] theorem State.complete_readByte (s : State) (q : Nat) : s.complete.readByte q = s.readByte q := rfl
@[simp] theorem State.complete_pixel (s : State) (r : Fin 32) (c : Fin 64) : s.complete.pixel r c = s.pixel r c := rfl
@[simp] theorem State.complete_isPressed (s : State) (q : Fin 16) : s.complete.isPressed q = s.isPressed q := rfl

/-! ### reportUnknown -/

@[simp] theorem State.reportUnknown_v (s : State) (w : Word) : (s.reportUnknown w).v = s.v := rfl
@[simp] theorem State.reportUnknown_i (s : State) (w : Word) : (s.reportUnknown w).i = s.i := rfl
@[simp] theorem State.reportUnknown_pc (s : State) (w : Word) : (s.reportUnknown w).pc = s.pc := rfl
@[simp] theorem State.reportUnknown_stack (s : State) (w : Word) : (s.reportUnknown w).stack = s.stack := rfl
@[simp] theorem State.reportUnknown_sp (s : State) (w : Word) : (s.reportUnknown w).sp = s.sp := rfl
@[simp] theorem State.reportUnknown_dt (s : State) (w : Word) : (s.reportUnknown w).dt = s.dt := rfl
@[simp] theorem State.reportUnknown_st (s : State) (w : Word) : (s.reportUnknown w).st = s.st := rfl
@[simp] theorem State.reportUnknown_mem (s : State) (w : Word) : (s.reportUnknown w).mem = s.mem := rfl
@[simp] theorem State.reportUnknown_fb (s : State) (w : Word) : (s.reportUnknown w).fb = s.fb := rfl
@[simp] theorem State.reportUnknown_key (s : State) (w : Word) : (s.reportUnknown w).key = s.key := rfl
@[simp] theorem State.reportUnknown_wait (s : State) (w : Word) : (s.reportUnknown w).wait = s.wait := rfl
@[simp] theorem State.reportUnknown_schedule (s : State) (w : Word) : (s.reportUnknown w).schedule = s.schedule := rfl
@[simp] theorem State.reportUnknown_draws (s : State) (w : Word) : (s.reportUnknown w).draws = s.draws := rfl
@[simp] theorem State.reportUnknown_report (s : State) (w : Word) : (s.reportUnknown w).report = some (.unknownOpcode w) := rfl
@[simp] theorem State.reportUnknown_errorMark (s : State) (w : Word) : (s.reportUnknown w).errorMark = s.errorMark := rfl
@[simp] theorem State.reportUnknown_config (s : State) (w : Word) : (s.reportUnknown w).config = s.config := rfl

@[simp] theorem State.reportUnknown_getV (s : State) (w : Word) (r : Nibble) : (s.reportUnknown w).getV r = s.getV r := rfl
@[simp] theorem State.reportUnknown_readByte (s : State) (w : Word) (q : Nat) : (s.reportUnknown w).readByte q = s.readByte q := rfl
@[simp] theorem State.reportUnknown_pixel (s : State) (w : Word) (r : Fin 32) (c : Fin 64) : (s.reportUnknown w).pixel r c = s.pixel r c := rfl
@[simp] theorem State.reportUnknown_isPressed (s : State) (w : Word) (q : Fin 16) : (s.reportUnknown w).isPressed q = s.isPressed q := rfl

/-! ### raise -/

@[simp] theorem State.raise_v (s : State) (e : TickError) : (s.raise e).v = s.v := rfl
@[simp] theorem State.raise_i (s : State) (e : TickError) : (s.raise e).i = s.i := rfl
@[simp] theorem State.raise_pc (s : State) (e : TickError) : (s.raise e).pc = s.pc := rfl
@[simp] theorem State.raise_stack (s : State) (e : TickError) : (s.raise e).stack = s.stack := rfl
@[simp] theorem State.raise_sp (s : State) (e : TickError) : (s.raise e).sp = s.sp := rfl
@[simp] theorem State.raise_dt (s : State) (e : TickError) : (s.raise e).dt = s.dt := rfl
@[simp] theorem State.raise_st (s : State) (e : TickError) : (s.raise e).st = s.st := rfl
@[simp] theorem State.raise_mem (s : State) (e : TickError) : (s.raise e).mem = s.mem := rfl
@[simp] theorem State.raise_fb (s : State) (e : TickError) : (s.raise e).fb = s.fb := rfl
@[simp] theorem State.raise_key (s : State) (e : TickError) : (s.raise e).key = s.key := rfl
@[simp] theorem State.raise_wait (s : State) (e : TickError) : (s.raise e).wait = s.wait := rfl
@[simp] theorem State.raise_schedule (s : State) (e : TickError) : (s.raise e).schedule = s.schedule := rfl
@[simp] theorem State.raise_draws (s : State) (e : TickError) : (s.raise e).draws = s.draws := rfl
@[simp] theorem State.raise_report (s : State) (e : TickError) : (s.raise e).report = some (.error e) := rfl
@[simp] theorem State.raise_errorMark (s : State) (e : TickError) : (s.raise e).errorMark = true := rfl
@[simp] theorem State.raise_config (s : State) (e : TickError) : (s.raise e).config = s.config := rfl

@[simp] theorem State.raise_getV (s : State) (e : TickError) (r : Nibble) : (s.raise e).getV r = s.getV r := rfl
@[simp] theorem State.raise_readByte (s : State) (e : TickError) (q : Nat) : (s.raise e).readByte q = s.readByte q := rfl
@[simp] theorem State.raise_pixel (s : State) (e : TickError) (r : Fin 32) (c : Fin 64) : (s.raise e).pixel r c = s.pixel r c := rfl
@[simp] theorem State.raise_isPressed (s : State) (e : TickError) (q : Fin 16) : (s.raise e).isPressed q = s.isPressed q := rfl

/-! ### advance -/

@[simp] theorem State.advance_v (s : State) : s.advance.v = s.v := rfl
@[simp] theorem State.advance_i (s : State) : s.advance.i = s.i := rfl
@[simp] theorem State.advance_pc (s : State) : s.advance.pc = s.pc + 2#16 := rfl
@[simp] theorem State.advance_stack (s : State) : s.advance.stack = s.stack := rfl
@[simp] theorem State.advance_sp (s : State) : s.advance.sp = s.sp := rfl
@[simp] theorem State.advance_dt (s : State) : s.advance.dt = s.dt := rfl
@[simp] theorem State.advance_st (s : State) : s.advance.st = s.st := rfl
@[simp] theorem State.advance_mem (s : State) : s.advance.mem = s.mem := rfl
@[simp] theorem State.advance_fb (s : State) : s.advance.fb = s.fb := rfl
@[simp] theorem State.advance_key (s : State) : s.advance.key = s.key := rfl
@[simp] theorem State.advance_wait (s : State) : s.advance.wait = .running := rfl
@[simp] theorem State.advance_schedule (s : State) : s.advance.schedule = s.schedule := rfl
@[simp] theorem State.advance_draws (s : State) : s.advance.draws = s.draws := rfl
@[simp] theorem State.advance_report (s : State) : s.advance.report = s.report := rfl
@[simp] theorem State.advance_errorMark (s : State) : s.advance.errorMark = s.errorMark := rfl
@[simp] theorem State.advance_config (s : State) : s.advance.config = s.config := rfl

@[simp] theorem State.advance_getV (s : State) (r : Nibble) : s.advance.getV r = s.getV r := rfl
@[simp] theorem State.advance_readByte (s : State) (q : Nat) : s.advance.readByte q = s.readByte q := rfl
@[simp] theorem State.advance_pixel (s : State) (r : Fin 32) (c : Fin 64) : s.advance.pixel r c = s.pixel r c := rfl
@[simp] theorem State.advance_isPressed (s : State) (q : Fin 16) : s.advance.isPressed q = s.isPressed q := rfl

/-! ### Accessors of what an update wrote -/

/-- Read after write of a register (10_state.md R20). -/
@[simp] theorem State.getV_setV (s : State) (x r : Nibble) (b : Byte) :
    (s.setV x b).getV r = if r = x then b else s.getV r := by
  simp only [State.getV, State.setV, Vector.getElem_set, BitVec.toNat_inj, eq_comm]

@[simp] theorem State.readByte_setMem (s : State) (m : Memory) (a : Nat) : (s.setMem m).readByte a = readCell s.config.font m a := rfl

@[simp] theorem State.pixel_setFb (s : State) (f : Screen) (r : Fin 32) (c : Fin 64) :
    (s.setFb f).pixel r c = pixelAt f r c := rfl

@[simp] theorem State.isPressed_setKey (s : State) (k q : Fin 16) (b : Bool) :
    (s.setKey k b).isPressed q = if q = k then b else s.isPressed q := by
  simp only [State.isPressed, State.setKey, Vector.getElem_set, Fin.val_inj, eq_comm]

/-! ### setFlag, skipIf and writeBytes -/

@[simp] theorem State.setFlag_i (s : State) (g : Bool) : (s.setFlag g).i = s.i := rfl
@[simp] theorem State.setFlag_pc (s : State) (g : Bool) : (s.setFlag g).pc = s.pc := rfl
@[simp] theorem State.setFlag_stack (s : State) (g : Bool) : (s.setFlag g).stack = s.stack := rfl
@[simp] theorem State.setFlag_sp (s : State) (g : Bool) : (s.setFlag g).sp = s.sp := rfl
@[simp] theorem State.setFlag_dt (s : State) (g : Bool) : (s.setFlag g).dt = s.dt := rfl
@[simp] theorem State.setFlag_st (s : State) (g : Bool) : (s.setFlag g).st = s.st := rfl
@[simp] theorem State.setFlag_mem (s : State) (g : Bool) : (s.setFlag g).mem = s.mem := rfl
@[simp] theorem State.setFlag_fb (s : State) (g : Bool) : (s.setFlag g).fb = s.fb := rfl
@[simp] theorem State.setFlag_key (s : State) (g : Bool) : (s.setFlag g).key = s.key := rfl
@[simp] theorem State.setFlag_wait (s : State) (g : Bool) : (s.setFlag g).wait = s.wait := rfl
@[simp] theorem State.setFlag_schedule (s : State) (g : Bool) : (s.setFlag g).schedule = s.schedule := rfl
@[simp] theorem State.setFlag_draws (s : State) (g : Bool) : (s.setFlag g).draws = s.draws := rfl
@[simp] theorem State.setFlag_report (s : State) (g : Bool) : (s.setFlag g).report = s.report := rfl
@[simp] theorem State.setFlag_errorMark (s : State) (g : Bool) : (s.setFlag g).errorMark = s.errorMark := rfl
@[simp] theorem State.setFlag_config (s : State) (g : Bool) : (s.setFlag g).config = s.config := rfl

@[simp] theorem State.getV_setFlag (s : State) (g : Bool) (r : Nibble) :
    (s.setFlag g).getV r = if r = flagReg then flagByte g else s.getV r := State.getV_setV s flagReg r (flagByte g)
@[simp] theorem State.setFlag_readByte (s : State) (g : Bool) (a : Nat) : (s.setFlag g).readByte a = s.readByte a := rfl
@[simp] theorem State.setFlag_pixel (s : State) (g : Bool) (r : Fin 32) (c : Fin 64) :
    (s.setFlag g).pixel r c = s.pixel r c := rfl
@[simp] theorem State.setFlag_isPressed (s : State) (g : Bool) (q : Fin 16) :
    (s.setFlag g).isPressed q = s.isPressed q := rfl

@[simp] theorem State.skipIf_v (s : State) (c : Bool) : (s.skipIf c).v = s.v := by cases c <;> rfl
@[simp] theorem State.skipIf_i (s : State) (c : Bool) : (s.skipIf c).i = s.i := by cases c <;> rfl
@[simp] theorem State.skipIf_stack (s : State) (c : Bool) : (s.skipIf c).stack = s.stack := by cases c <;> rfl
@[simp] theorem State.skipIf_sp (s : State) (c : Bool) : (s.skipIf c).sp = s.sp := by cases c <;> rfl
@[simp] theorem State.skipIf_dt (s : State) (c : Bool) : (s.skipIf c).dt = s.dt := by cases c <;> rfl
@[simp] theorem State.skipIf_st (s : State) (c : Bool) : (s.skipIf c).st = s.st := by cases c <;> rfl
@[simp] theorem State.skipIf_mem (s : State) (c : Bool) : (s.skipIf c).mem = s.mem := by cases c <;> rfl
@[simp] theorem State.skipIf_fb (s : State) (c : Bool) : (s.skipIf c).fb = s.fb := by cases c <;> rfl
@[simp] theorem State.skipIf_key (s : State) (c : Bool) : (s.skipIf c).key = s.key := by cases c <;> rfl
@[simp] theorem State.skipIf_wait (s : State) (c : Bool) : (s.skipIf c).wait = s.wait := by cases c <;> rfl
@[simp] theorem State.skipIf_schedule (s : State) (c : Bool) : (s.skipIf c).schedule = s.schedule := by cases c <;> rfl
@[simp] theorem State.skipIf_draws (s : State) (c : Bool) : (s.skipIf c).draws = s.draws := by cases c <;> rfl
@[simp] theorem State.skipIf_report (s : State) (c : Bool) : (s.skipIf c).report = s.report := by cases c <;> rfl
@[simp] theorem State.skipIf_errorMark (s : State) (c : Bool) : (s.skipIf c).errorMark = s.errorMark := by cases c <;> rfl
@[simp] theorem State.skipIf_config (s : State) (c : Bool) : (s.skipIf c).config = s.config := by cases c <;> rfl

@[simp] theorem State.skipIf_pc (s : State) (c : Bool) : (s.skipIf c).pc = if c then s.pc + 2#16 else s.pc := by
  cases c <;> rfl
@[simp] theorem State.skipIf_getV (s : State) (c : Bool) (r : Nibble) : (s.skipIf c).getV r = s.getV r := by
  cases c <;> rfl
@[simp] theorem State.skipIf_readByte (s : State) (c : Bool) (a : Nat) : (s.skipIf c).readByte a = s.readByte a := by
  cases c <;> rfl
@[simp] theorem State.skipIf_pixel (s : State) (c : Bool) (r : Fin 32) (q : Fin 64) :
    (s.skipIf c).pixel r q = s.pixel r q := by
  cases c <;> rfl
@[simp] theorem State.skipIf_isPressed (s : State) (c : Bool) (q : Fin 16) :
    (s.skipIf c).isPressed q = s.isPressed q := by
  cases c <;> rfl

@[simp] theorem State.writeBytes_v (s : State) (a : Nat) (bs : List Byte) : (s.writeBytes a bs).v = s.v := rfl
@[simp] theorem State.writeBytes_i (s : State) (a : Nat) (bs : List Byte) : (s.writeBytes a bs).i = s.i := rfl
@[simp] theorem State.writeBytes_pc (s : State) (a : Nat) (bs : List Byte) : (s.writeBytes a bs).pc = s.pc := rfl
@[simp] theorem State.writeBytes_stack (s : State) (a : Nat) (bs : List Byte) : (s.writeBytes a bs).stack = s.stack := rfl
@[simp] theorem State.writeBytes_sp (s : State) (a : Nat) (bs : List Byte) : (s.writeBytes a bs).sp = s.sp := rfl
@[simp] theorem State.writeBytes_dt (s : State) (a : Nat) (bs : List Byte) : (s.writeBytes a bs).dt = s.dt := rfl
@[simp] theorem State.writeBytes_st (s : State) (a : Nat) (bs : List Byte) : (s.writeBytes a bs).st = s.st := rfl
@[simp] theorem State.writeBytes_fb (s : State) (a : Nat) (bs : List Byte) : (s.writeBytes a bs).fb = s.fb := rfl
@[simp] theorem State.writeBytes_key (s : State) (a : Nat) (bs : List Byte) : (s.writeBytes a bs).key = s.key := rfl
@[simp] theorem State.writeBytes_wait (s : State) (a : Nat) (bs : List Byte) : (s.writeBytes a bs).wait = s.wait := rfl
@[simp] theorem State.writeBytes_schedule (s : State) (a : Nat) (bs : List Byte) : (s.writeBytes a bs).schedule = s.schedule := rfl
@[simp] theorem State.writeBytes_draws (s : State) (a : Nat) (bs : List Byte) : (s.writeBytes a bs).draws = s.draws := rfl
@[simp] theorem State.writeBytes_report (s : State) (a : Nat) (bs : List Byte) : (s.writeBytes a bs).report = s.report := rfl
@[simp] theorem State.writeBytes_errorMark (s : State) (a : Nat) (bs : List Byte) : (s.writeBytes a bs).errorMark = s.errorMark := rfl
@[simp] theorem State.writeBytes_config (s : State) (a : Nat) (bs : List Byte) : (s.writeBytes a bs).config = s.config := rfl

@[simp] theorem State.writeBytes_mem (s : State) (a : Nat) (bs : List Byte) :
    (s.writeBytes a bs).mem = writeCells s.config.font s.mem a bs := rfl
@[simp] theorem State.writeBytes_getV (s : State) (a : Nat) (bs : List Byte) (r : Nibble) :
    (s.writeBytes a bs).getV r = s.getV r := rfl
@[simp] theorem State.writeBytes_readByte (s : State) (a : Nat) (bs : List Byte) (c : Nat) :
    (s.writeBytes a bs).readByte c = readCell s.config.font (writeCells s.config.font s.mem a bs) c := rfl

/-- Two states in which every register reads the same have the same register file. -/
theorem State.ext_getV (s t : State) (h : ∀ r, s.getV r = t.getV r) : s.v = t.v := by
  apply Vector.ext
  intro k hk
  have := h (BitVec.ofNat 4 k)
  simpa [State.getV, BitVec.toNat_ofNat, Nat.mod_eq_of_lt hk] using this

end Sys2Proof.Machine
end

