-- ==== Sys2Proof/Laws/Memory.lean ====
section
/-! SUPPORT. Memory's list keeps its canonical form under every operation, and reads of it. -/

namespace Sys2Proof.Machine

variable {f : Font}

theorem unlistedByte_beyond (a : Nat) (h : Config.fontBytes ≤ a) : unlistedByte f a = 0#8 := by
  unfold unlistedByte
  exact dif_neg (Nat.not_lt.mpr h)

@[simp] theorem readCell_nil (a : Nat) : readCell f [] a = unlistedByte f a := rfl

theorem readCell_cons (c : Nat) (d : Byte) (m : Memory) (a : Nat) :
    readCell f ((c, d) :: m) a = if a = c then d else readCell f m a := rfl

/-- What `wf` says of a list with a first cell. -/
theorem wf_cons (a : Nat) (b : Byte) (m : Memory) :
    Memory.wf f ((a, b) :: m) = true ↔
      a < Config.memSize ∧ b ≠ unlistedByte f a ∧ (∀ c ∈ m, a < c.1) ∧ Memory.wf f m = true := by
  simp [Memory.wf, and_assoc]

theorem mem_listedCell {a : Nat} {b : Byte} {c : Host.Cell} (h : c ∈ listedCell f a b) :
    c = (a, b) ∧ b ≠ unlistedByte f a := by
  unfold listedCell at h
  split at h
  · cases h
  · exact ⟨List.mem_singleton.mp h, ‹_›⟩

/-- Prefixing a cell below all others, or nothing when its byte is the unlisted one, keeps the form. -/
theorem wf_listedCell_append {a : Nat} {b : Byte} {m : Memory} (ha : a < Config.memSize)
    (hm : Memory.wf f m = true) (hlt : ∀ c ∈ m, a < c.1) : Memory.wf f (listedCell f a b ++ m) = true := by
  unfold listedCell
  split
  · exact hm
  · exact (wf_cons a b m).mpr ⟨ha, ‹_›, hlt, hm⟩

/-- Every cell after an insertion is the inserted one or was there before. -/
theorem mem_insertCell {m : Memory} {a : Nat} {b : Byte} {c : Host.Cell} (h : c ∈ insertCell f m a b) :
    c = (a, b) ∨ c ∈ m := by
  induction m with
  | nil => exact .inl (mem_listedCell h).1
  | cons hd rest ih =>
    obtain ⟨x, d⟩ := hd
    simp only [insertCell] at h
    split at h
    · rcases List.mem_append.mp h with h | h
      · exact .inl (mem_listedCell h).1
      · exact .inr h
    · split at h
      · rcases List.mem_append.mp h with h | h
        · exact .inl (mem_listedCell h).1
        · exact .inr (List.mem_cons_of_mem _ h)
      · rcases List.mem_cons.mp h with h | h
        · exact .inr (h ▸ List.mem_cons_self)
        · exact (ih h).imp_right (List.mem_cons_of_mem _)

/-- An insertion inside memory keeps the canonical form. -/
theorem wf_insertCell {m : Memory} {a : Nat} {b : Byte} (ha : a < Config.memSize) (hm : Memory.wf f m = true) :
    Memory.wf f (insertCell f m a b) = true := by
  induction m with
  | nil => simpa [insertCell] using wf_listedCell_append (b := b) ha hm (by simp)
  | cons hd rest ih =>
    obtain ⟨x, d⟩ := hd
    obtain ⟨hx, hd, hlt, hrest⟩ := (wf_cons x d rest).mp hm
    simp only [insertCell]
    split
    · refine wf_listedCell_append ha hm fun c hc => ?_
      rcases List.mem_cons.mp hc with rfl | hc
      · assumption
      · exact Nat.lt_trans ‹_› (hlt c hc)
    · split
      · subst a; exact wf_listedCell_append ha hrest hlt
      · refine (wf_cons x d _).mpr ⟨hx, hd, fun c hc => ?_, ih hrest⟩
        rcases mem_insertCell hc with rfl | hc
        · simp only; omega
        · exact hlt c hc

/-- MEM[a] <- b keeps the canonical form. -/
theorem wf_writeCell {m : Memory} (a : Nat) (b : Byte) (hm : Memory.wf f m = true) :
    Memory.wf f (writeCell f m a b) = true := by
  unfold writeCell
  split
  · exact wf_insertCell ‹_› hm
  · exact hm

/-- A block of writes keeps the canonical form. -/
theorem wf_writeCells {m : Memory} (a : Nat) (bs : List Byte) (hm : Memory.wf f m = true) :
    Memory.wf f (writeCells f m a bs) = true := by
  induction bs generalizing m a with
  | nil => exact hm
  | cons b bs ih => exact ih (a + 1) (wf_writeCell a b hm)

/-! ### Reads after writes -/

/-- An address below every listed one reads as unlisted. -/
theorem readCell_of_lt {m : Memory} {a : Nat} (h : ∀ c ∈ m, a < c.1) : readCell f m a = unlistedByte f a := by
  induction m with
  | nil => rfl
  | cons hd rest ih =>
    have h1 := h hd List.mem_cons_self
    rw [readCell_cons, if_neg (by omega)]
    exact ih fun c hc => h c (List.mem_cons_of_mem _ hc)

/-- The inserted byte is read back where the list has its canonical form. -/
theorem readCell_insertCell_self {m : Memory} (a : Nat) (b : Byte) (hm : Memory.wf f m = true) :
    readCell f (insertCell f m a b) a = b := by
  have key : ∀ r : Memory, (∀ c ∈ r, a < c.1) → readCell f (listedCell f a b ++ r) a = b := by
    intro r hr
    unfold listedCell
    split
    · rw [List.nil_append, readCell_of_lt hr, ‹b = unlistedByte f a›]
    · exact if_pos rfl
  induction m with
  | nil => simpa [insertCell] using key [] (by simp)
  | cons hd rest ih =>
    obtain ⟨c, d⟩ := hd
    obtain ⟨-, -, hlt, hrest⟩ := (wf_cons c d rest).mp hm
    simp only [insertCell]
    split
    · refine key _ fun q hq => ?_
      rcases List.mem_cons.mp hq with rfl | hq
      · assumption
      · exact Nat.lt_trans ‹_› (hlt q hq)
    · split
      · subst a; exact key _ hlt
      · rw [readCell_cons, if_neg ‹_›, ih hrest]

/-- An insertion changes no other address, whatever the list. -/
theorem readCell_insertCell_ne (m : Memory) (a : Nat) (b : Byte) {q : Nat} (h : q ≠ a) :
    readCell f (insertCell f m a b) q = readCell f m q := by
  have key : ∀ r : Memory, readCell f (listedCell f a b ++ r) q = readCell f r q := by
    intro r
    unfold listedCell
    split
    · rfl
    · exact if_neg h
  induction m with
  | nil => simpa [insertCell] using key []
  | cons hd rest ih =>
    obtain ⟨c, d⟩ := hd
    simp only [insertCell]
    split
    · exact key _
    · split
      · subst a; rw [key, readCell_cons, if_neg h]
      · simp only [readCell_cons, ih]

/-- MEM[a] <- b is read back at a, inside memory. -/
theorem readCell_writeCell_self {m : Memory} {a : Nat} (b : Byte) (ha : a < Config.memSize) (hm : Memory.wf f m = true) :
    readCell f (writeCell f m a b) a = b := by
  rw [writeCell, if_pos ha, readCell_insertCell_self a b hm]

/-- MEM[a] <- b leaves every other address. -/
theorem readCell_writeCell_ne (m : Memory) (a : Nat) (b : Byte) {q : Nat} (h : q ≠ a) :
    readCell f (writeCell f m a b) q = readCell f m q := by
  unfold writeCell
  split
  · exact readCell_insertCell_ne m a b h
  · rfl

/-- A block of writes leaves every address outside the block. -/
theorem readCell_writeCells_outside (m : Memory) (a : Nat) (bs : List Byte) {q : Nat} (h : q < a ∨ a + bs.length ≤ q) :
    readCell f (writeCells f m a bs) q = readCell f m q := by
  induction bs generalizing m a with
  | nil => rfl
  | cons b bs ih =>
    rw [List.length_cons] at h
    rw [writeCells, ih _ _ (by omega), readCell_writeCell_ne _ _ _ (by omega)]

/-- Memory right after reset has the canonical form, whatever the font. -/
theorem wf_resetWith (p : Params) : Memory.wf p.font (State.resetWith p).mem = true := rfl

/-- Memory at power-on has the canonical form. -/
theorem wf_zeroMemory : Memory.wf f (zeroMemory f) = true := wf_writeCells 0 _ rfl

end Sys2Proof.Machine
end

