-- ==== Sys2Proof/Laws/Ops.lean ====
section
/-! SUPPORT. For each shared operation, everything it can do, said once: the end of an instruction, the access check,
MemRead and MemWrite, Push and Pop, the key query, the fetch, the tick and the step. -/

namespace Sys2Proof.Machine

/-! ### The end of an instruction -/

@[simp] theorem conclude_ok (s t : State) : conclude s (.ok t) = .next t.complete := rfl

@[simp] theorem conclude_error (s : State) (e : TickError) : conclude s (.error e) = .next (s.raise e) := rfl

/-- The end of an instruction always answers a next state. -/
theorem conclude_answers (s : State) (r : Except TickError State) : ∃ u, conclude s r = .next u := by
  cases r with
  | ok t => exact ⟨_, rfl⟩
  | error e => exact ⟨_, rfl⟩

/-- What an answered next state is: the completed effect, or the state the instruction began in with the exception
raised. -/
theorem conclude_cases {s u : State} {r : Except TickError State} (h : conclude s r = .next u) :
    (∃ t, r = .ok t ∧ u = t.complete) ∨ (∃ e, r = .error e ∧ u = s.raise e) := by
  cases r with
  | ok t => exact .inl ⟨t, rfl, (Host.Outcome.next.inj h).symm⟩
  | error e => exact .inr ⟨e, rfl, (Host.Outcome.next.inj h).symm⟩

/-! ### Accesses -/

theorem accessError_eq_none {sp : Space} {a n : Nat} : accessError sp a n = none ↔ n = 0 ∨ a + n ≤ 0x1000 := by
  unfold accessError
  split
  · simp only [reduceCtorEq, false_iff]; omega
  · simp only [true_iff]; omega

theorem accessError_eq_some {sp : Space} {a n : Nat} {e : TickError} :
    accessError sp a n = some e ↔ (n ≠ 0 ∧ 0x1000 < a + n) ∧ e = .address sp (max a 0x1000) := by
  unfold accessError
  split
  · simp only [Option.some.injEq, eq_comm (a := e), iff_and_self]; omega
  · simp only [reduceCtorEq, false_iff]; omega

theorem memRead_cases (s : State) (sp : Space) (a n : Nat) :
    ((n = 0 ∨ a + n ≤ 0x1000) ∧ memRead s sp a n = .ok (s.readBytes a n)) ∨
    ((n ≠ 0 ∧ 0x1000 < a + n) ∧ memRead s sp a n = .error (.address sp (max a 0x1000))) := by
  unfold memRead
  cases h : accessError sp a n with
  | none => exact .inl ⟨accessError_eq_none.mp h, rfl⟩
  | some e => exact .inr ⟨(accessError_eq_some.mp h).1, by rw [(accessError_eq_some.mp h).2]⟩

theorem memWrite_cases (s : State) (a : Nat) (bs : List Byte) :
    ((bs.length = 0 ∨ a + bs.length ≤ 0x1000) ∧ memWrite s a bs = .ok (s.writeBytes a bs)) ∨
    ((bs.length ≠ 0 ∧ 0x1000 < a + bs.length) ∧ memWrite s a bs = .error (.address .data (max a 0x1000))) := by
  unfold memWrite
  cases h : accessError .data a bs.length with
  | none => exact .inl ⟨accessError_eq_none.mp h, rfl⟩
  | some e => exact .inr ⟨(accessError_eq_some.mp h).1, by rw [(accessError_eq_some.mp h).2]⟩

@[simp] theorem readBytes_length (s : State) (a n : Nat) : (s.readBytes a n).length = n := by
  induction n generalizing a with
  | zero => rfl
  | succ n ih => simp [State.readBytes, ih]

@[simp] theorem regBlock_length (s : State) (k n : Nat) : (s.regBlock k n).length = n := by
  induction n generalizing k with
  | zero => rfl
  | succ n ih => simp [State.regBlock, ih]

@[simp] theorem decimalDigits_length (b : Byte) : (decimalDigits b).length = 3 := rfl

/-- A register block load changes the register file alone. -/
theorem setRegBlock_eq (s : State) (k : Nat) (bs : List Byte) :
    s.setRegBlock k bs = { s with v := (s.setRegBlock k bs).v } := by
  induction bs generalizing s k with
  | nil => rfl
  | cons b bs ih =>
    simp only [State.setRegBlock]
    rw [ih]
    rfl

/-- A register block load leaves the registers above the block. -/
theorem setRegBlock_getV_above (s : State) (k : Nat) (bs : List Byte) {r : Nibble} (h : k + bs.length ≤ r.toNat) :
    (s.setRegBlock k bs).getV r = s.getV r := by
  induction bs generalizing s k with
  | nil => rfl
  | cons b bs ih =>
    rw [List.length_cons] at h
    have hr : r ≠ BitVec.ofNat 4 k := by
      intro e
      have := congrArg BitVec.toNat e
      rw [BitVec.toNat_ofNat] at this
      have := r.isLt
      omega
    rw [State.setRegBlock, ih _ _ (by omega), State.getV_setV, if_neg hr]

/-! ### The sprite composer -/

/-- FB[row][col] <- b changes no other pixel. -/
theorem pixelAt_setPixel_ne (f : Screen) (row : Fin 32) (col : Fin 64) (b : Bool) {row' : Fin 32} {col' : Fin 64}
    (h : ¬ (row' = row ∧ col' = col)) : pixelAt (setPixel f row col b) row' col' = pixelAt f row' col' := by
  unfold pixelAt setPixel
  by_cases hr : row' = row
  · subst hr
    have hc : col'.val ≠ col.val := fun e => h ⟨rfl, Fin.ext e⟩
    simp only [Vector.getElem_set_self]
    split <;> simp [hc]
  · have hv : row.val ≠ row'.val := fun e => hr (Fin.ext e.symm)
    simp [Vector.getElem_set_ne, hv]

/-- One sprite byte changes only pixels of its row under its columns. -/
theorem drawColumns_outside (p : Params) (cx : Nat) (row : Fin 32) (b : Byte) (k i : Nat) (acc : Screen × Bool)
    {row' : Fin 32} {col' : Fin 64}
    (h : ¬ (row' = row ∧ ∃ i', i ≤ i' ∧ i' < i + k ∧ col'.val = (cx + i') % 64)) :
    pixelAt (drawColumns p cx row b i k acc).1 row' col' = pixelAt acc.1 row' col' := by
  induction k generalizing i acc with
  | zero => rfl
  | succ k ih =>
    rw [drawColumns, ih]
    · refine pixelAt_setPixel_ne _ _ _ _ ?_
      rintro ⟨h1, h2⟩
      exact h ⟨h1, i, by omega, by omega, congrArg Fin.val h2⟩
    · rintro ⟨h1, i', h2, h3, h4⟩
      exact h ⟨h1, i', by omega, by omega, h4⟩

/-- A sprite changes only pixels of its wrapped footprint. -/
theorem drawRows_outside (p : Params) (cx cy : Nat) (bs : List Byte) (j : Nat) (acc : Screen × Bool)
    {row' : Fin 32} {col' : Fin 64}
    (h : ¬ ∃ j' i', j ≤ j' ∧ j' < j + bs.length ∧ i' < 8 ∧ row'.val = (cy + j') % 32 ∧ col'.val = (cx + i') % 64) :
    pixelAt (drawRows p cx cy j bs acc).1 row' col' = pixelAt acc.1 row' col' := by
  induction bs generalizing j acc with
  | nil => rfl
  | cons b bs ih =>
    rw [List.length_cons] at h
    rw [drawRows, ih, drawColumns_outside]
    · rintro ⟨h1, i', -, h3, h4⟩
      exact h ⟨j, i', by omega, by omega, by omega, congrArg Fin.val h1, h4⟩
    · rintro ⟨j', i', h2, h3, h4, h5, h6⟩
      exact h ⟨j', i', by omega, by omega, h4, h5, h6⟩

/-! ### The call stack -/

theorem push_cases (s : State) (a : Word) :
    (∃ (_h : s.sp.val < s.config.stackDepthLimit.slots) (h16 : s.sp.val < 16), s.push a = .ok { s with
        stack := s.stack.set s.sp.val a h16, sp := ⟨s.sp.val + 1, by omega⟩ }) ∨
    (s.config.stackDepthLimit.slots ≤ s.sp.val ∧ s.push a = .error (.stack .overflow)) := by
  unfold State.push
  split
  · exact .inl ⟨‹_›, Nat.lt_of_lt_of_le ‹_› s.config.stackDepthLimit.slots_le, rfl⟩
  · exact .inr ⟨by omega, rfl⟩

theorem pop_cases (s : State) :
    (s.sp.val = 0 ∧ s.pop = .error (.stack .underflow)) ∨
    (∃ (_h : 0 < s.sp.val) (h16 : s.sp.val - 1 < 16), s.pop =
      .ok (s.stack[s.sp.val - 1], { s with sp := ⟨s.sp.val - 1, by omega⟩ })) := by
  unfold State.pop
  split
  · exact .inl ⟨‹_›, rfl⟩
  · exact .inr ⟨by omega, by omega, rfl⟩

/-! ### The key query and the poll -/

theorem keyQuery_cases (s : State) (code : Byte) :
    (∃ h : code.toNat < 16, keyQuery s code = .ok (s.isPressed ⟨code.toNat, h⟩)) ∨
    (15 < code.toNat ∧ s.config.keyOor = .fault ∧ keyQuery s code = .error (.address .key code.toNat)) ∨
    (15 < code.toNat ∧ s.config.keyOor = .mask ∧
      keyQuery s code = .ok (s.isPressed ⟨code.toNat % 16, Nat.mod_lt _ (by decide)⟩)) ∨
    (15 < code.toNat ∧ s.config.keyOor = .notPressed ∧ keyQuery s code = .ok false) := by
  unfold keyQuery
  split
  · exact .inl ⟨‹_›, rfl⟩
  · cases s.config.keyOor
    · exact .inr (.inl ⟨by omega, rfl, rfl⟩)
    · exact .inr (.inr (.inl ⟨by omega, rfl, rfl⟩))
    · exact .inr (.inr (.inr ⟨by omega, rfl, rfl⟩))

/-! ### The shifts -/

/-- What the two writes of a shift leave in the registers, for either order of them. -/
theorem shiftWrites_getV (s : State) (x r : Nibble) (b : Byte) (g : Bool) :
    (s.shiftWrites x b g).getV r =
      if r = flagReg ∧ (x ≠ flagReg ∨ s.config.flagOrder = .flagLast) then flagByte g
      else if r = x then b else s.getV r := by
  unfold State.shiftWrites
  cases s.config.flagOrder
  · simp [State.resultThenFlag]
  · simp only [State.getV_setV, State.getV_setFlag, reduceCtorEq, or_false]
    by_cases hx : r = x
    · subst hx
      by_cases hr : r = flagReg <;> simp [hr]
    · by_cases hr : r = flagReg
      · subst hr; simp [hx, Ne.symm hx]
      · simp [hx, hr]

/-- A shift changes the register file alone. -/
theorem shiftWrites_eq (s : State) (x : Nibble) (b : Byte) (g : Bool) :
    s.shiftWrites x b g = { s with v := (s.shiftWrites x b g).v } := by
  unfold State.shiftWrites
  cases s.config.flagOrder <;> rfl

theorem pollKey_cases (s : State) (x : Nibble) :
    (∃ k, s.leastKey = some k ∧ s.pollKey x = s.setV x (BitVec.ofNat 8 k.val)) ∨
    (s.leastKey = none ∧ s.pollKey x = (s.setPc (s.pc - 2#16)).setWait (.awaitingKey x)) := by
  unfold State.pollKey
  cases s.leastKey with
  | some k => exact .inl ⟨k, rfl, rfl⟩
  | none => exact .inr ⟨rfl, rfl⟩

/-! ### Fetch, tick and step -/

theorem fetch_cases (s : State) :
    (s.pc.toNat ≤ 0x0FFE ∧ s.fetch = .ok s.wordAtPc) ∨
    (0x0FFE < s.pc.toNat ∧ s.fetch = .error (.address .fetch (max s.pc.toNat 0x1000))) := by
  unfold State.fetch State.wordAtPc
  cases h : accessError .fetch s.pc.toNat 2 with
  | none =>
    have := accessError_eq_none.mp h
    exact .inl ⟨by omega, rfl⟩
  | some e =>
    have := accessError_eq_some.mp h
    exact .inr ⟨by omega, by rw [this.2]⟩

theorem iTick_cases (s : State) :
    (s.pc.toNat ≤ 0x0FFE ∧ ∃ i, decode s.wordAtPc = .instr i ∧ iTick s = exec i s.advance) ∨
    (s.pc.toNat ≤ 0x0FFE ∧ decode s.wordAtPc = .unknown s.wordAtPc ∧
      iTick s = .next (s.advance.reportUnknown s.wordAtPc)) ∨
    (0x0FFE < s.pc.toNat ∧ iTick s = .next (s.raise (.address .fetch (max s.pc.toNat 0x1000)))) := by
  unfold iTick
  rcases fetch_cases s with ⟨hpc, hf⟩ | ⟨hpc, hf⟩
  · rw [hf]
    rcases decode_cases s.wordAtPc with ⟨i, hd⟩ | hd
    · exact .inl ⟨hpc, _, hd, by simp only [hd]; rfl⟩
    · exact .inr (.inl ⟨hpc, hd, by simp only [hd]; rfl⟩)
  · rw [hf]
    exact .inr (.inr ⟨hpc, rfl⟩)

/-- With no command pending a step is an ITICK. -/
theorem step_nil {s : State} (h : s.schedule = []) : step s = iTick s := by
  simp [step, hostStep, nextCommand, h, perform]

/-- With a command pending a step performs it and leaves the rest of the schedule. -/
theorem step_cons {s : State} {c : Command} {rest : List Command} (h : s.schedule = c :: rest) :
    step s = perform c { s with schedule := rest } := by
  simp [step, hostStep, nextCommand, h]

end Sys2Proof.Machine
end

