-- ==== Sys2Proof/Laws/PerInstr.lean ====
section
/-! SUPPORT. Per instruction: its encoding carries the match value of its row of 30_encoding.md R85 under the row's mask. -/

namespace Sys2Proof.Laws.EncodingMatchesRow

/-- The instruction's word, under its row's mask, is its row's match value (30_encoding.md R84). -/
abbrev Statement (i : Instr) : Prop := i.row.admits (encode i)

theorem cls : Statement .cls := rfl
theorem ret : Statement .ret := rfl
theorem jp (nnn : Addr) : Statement (.jp nnn) := wordNnn_mask _ nnn
theorem call (nnn : Addr) : Statement (.call nnn) := wordNnn_mask _ nnn
theorem seImm (x : Nibble) (kk : Byte) : Statement (.seImm x kk) := wordXkk_mask _ x kk
theorem sneImm (x : Nibble) (kk : Byte) : Statement (.sneImm x kk) := wordXkk_mask _ x kk
theorem seReg (x : Nibble) (y : Nibble) : Statement (.seReg x y) := wordXyn_maskLow _ x y _
theorem ldImm (x : Nibble) (kk : Byte) : Statement (.ldImm x kk) := wordXkk_mask _ x kk
theorem addImm (x : Nibble) (kk : Byte) : Statement (.addImm x kk) := wordXkk_mask _ x kk
theorem ldReg (x : Nibble) (y : Nibble) : Statement (.ldReg x y) := wordXyn_maskLow _ x y _
theorem orReg (x : Nibble) (y : Nibble) : Statement (.orReg x y) := wordXyn_maskLow _ x y _
theorem andReg (x : Nibble) (y : Nibble) : Statement (.andReg x y) := wordXyn_maskLow _ x y _
theorem xorReg (x : Nibble) (y : Nibble) : Statement (.xorReg x y) := wordXyn_maskLow _ x y _
theorem addReg (x : Nibble) (y : Nibble) : Statement (.addReg x y) := wordXyn_maskLow _ x y _
theorem subReg (x : Nibble) (y : Nibble) : Statement (.subReg x y) := wordXyn_maskLow _ x y _
theorem shrReg (x : Nibble) (y : Nibble) : Statement (.shrReg x y) := wordXyn_maskLow _ x y _
theorem subnReg (x : Nibble) (y : Nibble) : Statement (.subnReg x y) := wordXyn_maskLow _ x y _
theorem shlReg (x : Nibble) (y : Nibble) : Statement (.shlReg x y) := wordXyn_maskLow _ x y _
theorem sneReg (x : Nibble) (y : Nibble) : Statement (.sneReg x y) := wordXyn_maskLow _ x y _
theorem ldI (nnn : Addr) : Statement (.ldI nnn) := wordNnn_mask _ nnn
theorem jpV0 (nnn : Addr) : Statement (.jpV0 nnn) := wordNnn_mask _ nnn
theorem rnd (x : Nibble) (kk : Byte) : Statement (.rnd x kk) := wordXkk_mask _ x kk
theorem drw (x : Nibble) (y : Nibble) (n : Nibble) : Statement (.drw x y n) := wordXyn_mask _ x y n
theorem skp (x : Nibble) : Statement (.skp x) := wordXkk_maskLow _ x _
theorem sknp (x : Nibble) : Statement (.sknp x) := wordXkk_maskLow _ x _
theorem ldRegDt (x : Nibble) : Statement (.ldRegDt x) := wordXkk_maskLow _ x _
theorem ldRegKey (x : Nibble) : Statement (.ldRegKey x) := wordXkk_maskLow _ x _
theorem ldDtReg (x : Nibble) : Statement (.ldDtReg x) := wordXkk_maskLow _ x _
theorem ldStReg (x : Nibble) : Statement (.ldStReg x) := wordXkk_maskLow _ x _
theorem addI (x : Nibble) : Statement (.addI x) := wordXkk_maskLow _ x _
theorem ldFont (x : Nibble) : Statement (.ldFont x) := wordXkk_maskLow _ x _
theorem ldBcd (x : Nibble) : Statement (.ldBcd x) := wordXkk_maskLow _ x _
theorem storeRegs (x : Nibble) : Statement (.storeRegs x) := wordXkk_maskLow _ x _
theorem loadRegs (x : Nibble) : Statement (.loadRegs x) := wordXkk_maskLow _ x _

end Sys2Proof.Laws.EncodingMatchesRow
end

