-- ==== Sys2Proof/Tests/Slice0.lean ====
section
/-! SUPPORT. The model's own tests: expected values from spec/95_test_vectors.md (a vector's id stands in each comment) and
from the encodings of spec/30_encoding.md; ill-formed terms; and, for every statement with hypotheses, a state and
operands that meet them. -/

namespace Sys2Proof.Tests

open Sys2Proof Sys2Proof.Machine

/-! ## Helpers -/

/-- The next state, if the answer is one. -/
def after (o : Host.Outcome State Fault Refusal) : Option State :=
  match o with
  | .next t => some t
  | .fault _ => none
  | .refused _ => none

/-- One ITICK that fetches the word w at PC. -/
def tick (w : Nat) (s : State) : Option State := after (step (s.withFetchWord 16 w))

/-- The state after reset with two registers set. -/
def regs2 (x : Nibble) (a : Byte) (y : Nibble) (b : Byte) : State := (State.reset.setV x a).setV y b

/-- A step that performs one host command. -/
def command (c : Command) (s : State) : Option State := after (step { s with schedule := [c] })

/-! ## Ill-formed terms (the widths of the operands leave no ill-formed instruction) -/

theorem test_field_too_wide : fitsField 4 16 = false := by decide
theorem test_field_fits : fitsField 12 0xFFF = true := by decide
theorem test_instr_wellFormed : (Instr.drw 0xF#4 0xF#4 0xF#4).wellFormed = true := by decide
/-- What the check of a LOAD is. -/
theorem load_wellFormed (image : List Byte) : (Command.load image).wellFormed = decide (image.length ≤ 3584) := rfl
theorem test_image_too_long : (Command.load (List.replicate 3585 0#8)).wellFormed = false := by
  rw [load_wellFormed, List.length_replicate]; rfl
theorem test_image_fits : (Command.load (List.replicate 3584 0#8)).wellFormed = true := by
  rw [load_wellFormed, List.length_replicate]; rfl

/-! ## Decoding: a word per row written out from 30_encoding.md R85 (the words of 95_test_vectors.md) -/

theorem test_decode_cls : decode 0x00E0#16 = .instr .cls := by decide
theorem test_decode_ret : decode 0x00EE#16 = .instr .ret := by decide
theorem test_decode_jp : decode 0x1ABC#16 = .instr (.jp 0xABC#12) := by decide
theorem test_decode_call : decode 0x220E#16 = .instr (.call 0x20E#12) := by decide
theorem test_decode_seImm : decode 0x3A05#16 = .instr (.seImm 0xA#4 0x05#8) := by decide
theorem test_decode_sneImm : decode 0x4311#16 = .instr (.sneImm 0x3#4 0x11#8) := by decide
theorem test_decode_seReg : decode 0x5120#16 = .instr (.seReg 0x1#4 0x2#4) := by decide
theorem test_decode_ldImm : decode 0x6A05#16 = .instr (.ldImm 0xA#4 0x05#8) := by decide
theorem test_decode_addImm : decode 0x7A03#16 = .instr (.addImm 0xA#4 0x03#8) := by decide
theorem test_decode_ldReg : decode 0x8120#16 = .instr (.ldReg 0x1#4 0x2#4) := by decide
theorem test_decode_orReg : decode 0x8121#16 = .instr (.orReg 0x1#4 0x2#4) := by decide
theorem test_decode_andReg : decode 0x8122#16 = .instr (.andReg 0x1#4 0x2#4) := by decide
theorem test_decode_xorReg : decode 0x8F23#16 = .instr (.xorReg 0xF#4 0x2#4) := by decide
theorem test_decode_addReg : decode 0x8124#16 = .instr (.addReg 0x1#4 0x2#4) := by decide
theorem test_decode_subReg : decode 0x8125#16 = .instr (.subReg 0x1#4 0x2#4) := by decide
theorem test_decode_shrReg : decode 0x8126#16 = .instr (.shrReg 0x1#4 0x2#4) := by decide
theorem test_decode_subnReg : decode 0x8127#16 = .instr (.subnReg 0x1#4 0x2#4) := by decide
theorem test_decode_shlReg : decode 0x812E#16 = .instr (.shlReg 0x1#4 0x2#4) := by decide
theorem test_decode_sneReg : decode 0x9120#16 = .instr (.sneReg 0x1#4 0x2#4) := by decide
theorem test_decode_ldI : decode 0xA123#16 = .instr (.ldI 0x123#12) := by decide
theorem test_decode_jpV0 : decode 0xB300#16 = .instr (.jpV0 0x300#12) := by decide
theorem test_decode_rnd : decode 0xC30F#16 = .instr (.rnd 0x3#4 0x0F#8) := by decide
theorem test_decode_drw : decode 0xD12F#16 = .instr (.drw 0x1#4 0x2#4 0xF#4) := by decide
theorem test_decode_skp : decode 0xE59E#16 = .instr (.skp 0x5#4) := by decide
theorem test_decode_sknp : decode 0xE5A1#16 = .instr (.sknp 0x5#4) := by decide
theorem test_decode_ldRegDt : decode 0xF407#16 = .instr (.ldRegDt 0x4#4) := by decide
theorem test_decode_ldRegKey : decode 0xF30A#16 = .instr (.ldRegKey 0x3#4) := by decide
theorem test_decode_ldDtReg : decode 0xF315#16 = .instr (.ldDtReg 0x3#4) := by decide
theorem test_decode_ldStReg : decode 0xF318#16 = .instr (.ldStReg 0x3#4) := by decide
theorem test_decode_addI : decode 0xF11E#16 = .instr (.addI 0x1#4) := by decide
theorem test_decode_ldFont : decode 0xF329#16 = .instr (.ldFont 0x3#4) := by decide
theorem test_decode_ldBcd : decode 0xF033#16 = .instr (.ldBcd 0x0#4) := by decide
theorem test_decode_storeRegs : decode 0xF155#16 = .instr (.storeRegs 0x1#4) := by decide
theorem test_decode_loadRegs : decode 0xF265#16 = .instr (.loadRegs 0x2#4) := by decide

/-! Unknown words: vU1 to vU14. -/

theorem test_unknown_vU1 : decode 0x0000#16 = .unknown 0x0000#16 := by decide
theorem test_unknown_vU2 : decode 0x0123#16 = .unknown 0x0123#16 := by decide
theorem test_unknown_vU3 : decode 0x00E1#16 = .unknown 0x00E1#16 := by decide
theorem test_unknown_vU4 : decode 0x00FE#16 = .unknown 0x00FE#16 := by decide
theorem test_unknown_vU5 : decode 0x5121#16 = .unknown 0x5121#16 := by decide
theorem test_unknown_vU6 : decode 0x812F#16 = .unknown 0x812F#16 := by decide
theorem test_unknown_vU7 : decode 0x8128#16 = .unknown 0x8128#16 := by decide
theorem test_unknown_vU8 : decode 0x9125#16 = .unknown 0x9125#16 := by decide
theorem test_unknown_vU9 : decode 0xE39F#16 = .unknown 0xE39F#16 := by decide
theorem test_unknown_vU10 : decode 0xE300#16 = .unknown 0xE300#16 := by decide
theorem test_unknown_vU11 : decode 0xF300#16 = .unknown 0xF300#16 := by decide
theorem test_unknown_vU12 : decode 0xF3FF#16 = .unknown 0xF3FF#16 := by decide
theorem test_unknown_vU13 : decode 0xF356#16 = .unknown 0xF356#16 := by decide
theorem test_unknown_vU14 : decode 0xFFFF#16 = .unknown 0xFFFF#16 := by decide

theorem test_table_word : decodeTableWord 16 0x6A05 = some (.ldImm 0xA#4 0x05#8) := by decide
theorem test_table_word_unknown : decodeTableWord 16 0x5121 = none := by decide
theorem test_bytes_big_endian : decodeBytes [0x6A#8, 0x05#8, 0xFF#8] = some (.instr (.ldImm 0xA#4 0x05#8), [0xFF#8]) := by
  decide
theorem test_single_byte_is_no_word : decodeBytes [0x6A#8] = none := by decide

/-! ## Instructions, at most two vectors each -/

/-- vG19. -/
theorem test_cls :
    (tick 0x00E0 ((State.reset.setFb (setPixel State.reset.fb 10 10 true)).setV 15#4 1#8)).map
      (fun t => (t.pixel 10 10, t.getV 15#4)) =
    some (false, 1#8) := by decide
/-- vF9. -/
theorem test_ret :
    (tick 0x00EE ({ State.reset with pc := 0x210#16, sp := 1, stack := State.reset.stack.set 0 0x206#16 })).map
      (fun t => (t.pc, t.sp, t.stack[0])) =
    some (0x206#16, 0, 0x206#16) := by decide
/-- vF10. -/
theorem test_ret_underflow :
    (tick 0x00EE State.reset).map
      (fun t => (t.pc, t.sp, t.report)) =
    some (0x202#16, 0, some (.error (.stack .underflow))) := by decide
/-- vF1. -/
theorem test_jp :
    (tick 0x1ABC State.reset).map
      (fun t => t.pc) =
    some 0xABC#16 := by decide
/-- vF5. -/
theorem test_call :
    (tick 0x2300 ({ State.reset with pc := 0xFFE#16 })).map
      (fun t => (t.stack[0], t.sp, t.pc)) =
    some (0x1000#16, 1, 0x300#16) := by decide
/-- vF7. -/
theorem test_call_overflow :
    (tick 0x2300 ({ State.reset with sp := 16 })).map
      (fun t => (t.pc, t.sp, t.report, t.errorMark)) =
    some (0x202#16, 16, some (.error (.stack .overflow)), true) := by decide
/-- vF15. -/
theorem test_seImm_skips :
    (tick 0x3A05 (State.reset.setV 10#4 5#8)).map
      (fun t => t.pc) =
    some 0x204#16 := by decide
/-- vF16. -/
theorem test_seImm_falls :
    (tick 0x3A05 (State.reset.setV 10#4 6#8)).map
      (fun t => t.pc) =
    some 0x202#16 := by decide
/-- vF17. -/
theorem test_sneImm_falls :
    (tick 0x4A05 (State.reset.setV 10#4 5#8)).map
      (fun t => t.pc) =
    some 0x202#16 := by decide
/-- vF18. -/
theorem test_sneImm_skips :
    (tick 0x4A05 (State.reset.setV 10#4 6#8)).map
      (fun t => t.pc) =
    some 0x204#16 := by decide
/-- vF19. -/
theorem test_seReg :
    (tick 0x5120 (regs2 1#4 7#8 2#4 7#8)).map
      (fun t => t.pc) =
    some 0x204#16 := by decide
/-- vF23. -/
theorem test_sneReg :
    (tick 0x9120 (regs2 1#4 7#8 2#4 8#8)).map
      (fun t => t.pc) =
    some 0x204#16 := by decide
/-- vA1. -/
theorem test_ldImm :
    (tick 0x6A05 State.reset).map
      (fun t => (t.getV 10#4, t.pc)) =
    some (5#8, 0x202#16) := by decide
/-- vA4. -/
theorem test_addImm_wraps :
    (tick 0x7AFF (regs2 10#4 1#8 15#4 0x55#8)).map
      (fun t => (t.getV 10#4, t.getV 15#4)) =
    some (0#8, 0x55#8) := by decide
/-- vA10. -/
theorem test_ldReg :
    (tick 0x8120 (regs2 1#4 1#8 2#4 0xAB#8)).map
      (fun t => t.getV 1#4) =
    some 0xAB#8 := by decide
/-- vA11. -/
theorem test_orReg_keeps_flag :
    (tick 0x8121 ((regs2 1#4 0xF0#8 2#4 0x0F#8).setV 15#4 7#8)).map
      (fun t => (t.getV 1#4, t.getV 15#4)) =
    some (0xFF#8, 7#8) := by decide
/-- vA12. -/
theorem test_andReg :
    (tick 0x8122 (regs2 1#4 0xF0#8 2#4 0x3C#8)).map
      (fun t => t.getV 1#4) =
    some 0x30#8 := by decide
/-- vA15. -/
theorem test_xorReg_into_flag :
    (tick 0x8F23 (regs2 15#4 0xFF#8 2#4 0x0F#8)).map
      (fun t => t.getV 15#4) =
    some 0xF0#8 := by decide
/-- vA20. -/
theorem test_addReg_carry :
    (tick 0x8124 (regs2 1#4 0xC8#8 2#4 0x64#8)).map
      (fun t => (t.getV 1#4, t.getV 15#4)) =
    some (0x2C#8, 1#8) := by decide
/-- vA25. -/
theorem test_addReg_into_flag :
    (tick 0x8F14 (regs2 15#4 0x10#8 1#4 1#8)).map
      (fun t => t.getV 15#4) =
    some 0#8 := by decide
/-- vA30. -/
theorem test_subReg_borrow :
    (tick 0x8125 ((regs2 1#4 0x64#8 2#4 0xC8#8).setV 15#4 1#8)).map
      (fun t => (t.getV 1#4, t.getV 15#4)) =
    some (0x9C#8, 0#8) := by decide
/-- vA37. -/
theorem test_subReg_from_flag :
    (tick 0x81F5 (regs2 1#4 1#8 15#4 1#8)).map
      (fun t => (t.getV 1#4, t.getV 15#4)) =
    some (0#8, 1#8) := by decide
/-- vA40. -/
theorem test_subnReg :
    (tick 0x8127 (regs2 1#4 0x64#8 2#4 0xC8#8)).map
      (fun t => (t.getV 1#4, t.getV 15#4)) =
    some (0x64#8, 1#8) := by decide
/-- vA42. -/
theorem test_subnReg_equal :
    (tick 0x8127 (regs2 1#4 0x33#8 2#4 0x33#8)).map
      (fun t => (t.getV 1#4, t.getV 15#4)) =
    some (0#8, 1#8) := by decide
/-- vA50. -/
theorem test_shrReg :
    (tick 0x8126 (regs2 1#4 0xAA#8 2#4 5#8)).map
      (fun t => (t.getV 1#4, t.getV 2#4, t.getV 15#4)) =
    some (2#8, 5#8, 1#8) := by decide
/-- vA54. -/
theorem test_shrReg_into_flag :
    (tick 0x8F26 (regs2 2#4 2#8 15#4 9#8)).map
      (fun t => t.getV 15#4) =
    some 0#8 := by decide
/-- vA60. -/
theorem test_shlReg :
    (tick 0x812E (regs2 1#4 0xAA#8 2#4 0x81#8)).map
      (fun t => (t.getV 1#4, t.getV 2#4, t.getV 15#4)) =
    some (2#8, 0x81#8, 1#8) := by decide
/-- vA63. -/
theorem test_shlReg_into_flag :
    (tick 0x8F2E (State.reset.setV 2#4 0xC0#8)).map
      (fun t => t.getV 15#4) =
    some 1#8 := by decide
/-- vM1. -/
theorem test_ldI :
    (tick 0xA123 State.reset).map
      (fun t => t.i) =
    some 0x123#16 := by decide
/-- vF13. -/
theorem test_jpV0 :
    (tick 0xBFFF (State.reset.setV 0#4 0xFF#8)).map
      (fun t => t.pc) =
    some 0x10FE#16 := by decide
/-- vA70: the random byte B7 given. -/
theorem test_rnd_masks : (after (rndWith 0xB7#8 3#4 0x0F#8 State.reset)).map (fun t => t.getV 3#4) = some 7#8 := by decide
/-- 40_tick_cycle.md R118: one byte of the stream consumed. -/
theorem test_rnd_draws : (tick 0xC30F State.reset).map (fun t => t.draws) = some 1 := by decide
/-- vG3. -/
theorem test_drw_wraps :
    (tick 0xD121 (((regs2 1#4 60#8 2#4 31#8).setI 0x300#16).writeBytes 0x300 [0xFF#8])).map
      (fun t => (t.pixel 31 63, t.pixel 31 0, t.pixel 31 3, t.pixel 31 4, t.pixel 0 0, t.getV 15#4)) =
    some (true, true, true, false, false, 0#8) := by decide +kernel
/-- vG7. -/
theorem test_drw_collides :
    (tick 0xD121 ((((regs2 1#4 2#8 2#4 0#8).setI 0x300#16).writeBytes 0x300 [0xF0#8]).setFb (setPixel (setPixel State.reset.fb 0 2 true) 0 1 true))).map
      (fun t => (t.pixel 0 1, t.pixel 0 2, t.pixel 0 4, t.getV 15#4)) =
    some (true, false, true, 1#8) := by decide +kernel
/-- vK1. -/
theorem test_skp_held :
    (tick 0xE39E ((State.reset.setV 3#4 5#8).setKey 5 true)).map
      (fun t => t.pc) =
    some 0x204#16 := by decide
/-- vK4. -/
theorem test_skp_out_of_range :
    (tick 0xE39E (State.reset.setV 3#4 0x10#8)).map
      (fun t => (t.pc, t.report)) =
    some (0x202#16, some (.error (.address .key 0x10))) := by decide
/-- vK8. -/
theorem test_sknp_held :
    (tick 0xE3A1 ((State.reset.setV 3#4 5#8).setKey 5 true)).map
      (fun t => t.pc) =
    some 0x202#16 := by decide
/-- vK9. -/
theorem test_sknp_not_held :
    (tick 0xE3A1 (State.reset.setV 3#4 5#8)).map
      (fun t => t.pc) =
    some 0x204#16 := by decide
/-- vT1. -/
theorem test_ldRegDt :
    (tick 0xF307 (State.reset.setDt 0x2A#8)).map
      (fun t => (t.getV 3#4, t.dt)) =
    some (0x2A#8, 0x2A#8) := by decide
/-- vK11. -/
theorem test_ldRegKey_holds :
    (tick 0xF30A (State.reset.setV 3#4 0x77#8)).map
      (fun t => (t.pc, t.getV 3#4, t.wait, t.report)) =
    some (0x200#16, 0x77#8, .awaitingKey 3#4, some .done) := by decide
/-- vK13. -/
theorem test_ldRegKey_lowest :
    (tick 0xF30A (((State.reset.setKey 12 true).setKey 3 true).setKey 7 true)).map
      (fun t => (t.pc, t.getV 3#4, t.wait)) =
    some (0x202#16, 3#8, .running) := by decide
/-- vT2. -/
theorem test_ldDtReg :
    (tick 0xF315 (State.reset.setV 3#4 0x3C#8)).map
      (fun t => t.dt) =
    some 0x3C#8 := by decide
/-- vT3. -/
theorem test_ldStReg :
    (tick 0xF318 (State.reset.setV 3#4 5#8)).map
      (fun t => (t.st, t.tone)) =
    some (5#8, true) := by decide
/-- vM4. -/
theorem test_addI_wraps :
    (tick 0xF31E ((State.reset.setI 0xFFFF#16).setV 3#4 0xFF#8)).map
      (fun t => (t.i, t.getV 15#4)) =
    some (0xFE#16, 0#8) := by decide
/-- vM11. -/
theorem test_ldFont :
    (tick 0xF329 (State.reset.setV 3#4 0xFA#8)).map
      (fun t => t.i) =
    some 0x32#16 := by decide
/-- vM24. -/
theorem test_ldBcd :
    (tick 0xF333 ((State.reset.setI 0xFFD#16).setV 3#4 0xC7#8)).map
      (fun t => t.readBytes 0xFFD 3) =
    some [1#8, 9#8, 9#8] := by decide
/-- vM25. -/
theorem test_ldBcd_outside :
    (tick 0xF333 ((State.reset.setI 0xFFE#16).setV 3#4 0xC7#8)).map
      (fun t => (t.pc, t.readBytes 0xFFE 2, t.report)) =
    some (0x202#16, [0#8, 0#8], some (.error (.address .data 0x1000))) := by decide
/-- vM31. -/
theorem test_storeRegs :
    (tick 0xF255 (((regs2 0#4 1#8 1#4 2#8).setV 2#4 3#8).setI 0x300#16)).map
      (fun t => (t.readBytes 0x300 4, t.i)) =
    some ([1#8, 2#8, 3#8, 0#8], 0x300#16) := by decide
/-- vM34. -/
theorem test_storeRegs_last_byte :
    (tick 0xF055 ((State.reset.setV 0#4 0x77#8).setI 0xFFF#16)).map
      (fun t => t.readByte 0xFFF) =
    some 0x77#8 := by decide
/-- vM40. -/
theorem test_loadRegs :
    (tick 0xF265 (((State.reset.setI 0x300#16).setV 3#4 0x99#8).writeBytes 0x300 [0xA#8, 0xB#8, 0xC#8, 0xD#8])).map
      (fun t => (t.getV 0#4, t.getV 1#4, t.getV 2#4, t.getV 3#4)) =
    some (0xA#8, 0xB#8, 0xC#8, 0x99#8) := by decide
/-- vM41. -/
theorem test_loadRegs_font :
    (tick 0xFF65 State.reset).map
      (fun t => (t.getV 0#4, t.getV 1#4, t.getV 9#4, t.getV 15#4)) =
    some (0xF0#8, 0x90#8, 0x70#8, 0xF0#8) := by decide

/-! ## Other values of the parameters -/

/-- vF8: STACK_DEPTH_LIMIT = 15. -/
theorem test_call_depth_15 :
    (tick 0x2300 { State.resetWith { params with stackDepthLimit := .fifteen } with sp := 15 }).map
      (fun t => (t.sp, t.report)) = some (15, some (.error (.stack .overflow))) := by decide
/-- vA57: SHIFT_SRC = VX. -/
theorem test_shr_from_vx :
    (tick 0x8126 { regs2 1#4 4#8 2#4 5#8 with config := { params with shiftSrc := .vx } }).map
      (fun t => (t.getV 1#4, t.getV 15#4)) = some (2#8, 0#8) := by decide
/-- vA63: FLAG_ORDER = RESULT_LAST. -/
theorem test_shl_result_last :
    (tick 0x8F2E { State.reset.setV 2#4 0xC0#8 with config := { params with flagOrder := .resultLast } }).map
      (fun t => t.getV 15#4) = some 0x80#8 := by decide
/-- 45_keypad_timers.md R225: KEY_OOR = MASK queries the low nibble, KEY_OOR = NOT_PRESSED none. -/
theorem test_skp_mask :
    (tick 0xE39E { (State.reset.setV 3#4 0x15#8).setKey 5 true with config := { params with keyOor := .mask } }).map
      (fun t => (t.pc, t.report)) = some (0x204#16, some .done) := by decide
theorem test_sknp_not_pressed :
    (tick 0xE3A1 { State.reset.setV 3#4 0x15#8 with config := { params with keyOor := .notPressed } }).map
      (fun t => (t.pc, t.report)) = some (0x204#16, some .done) := by decide
/-- 44_display.md R206: SPRITE_MSB_LEFT = false makes column i bit i of the sprite byte. -/
theorem test_drw_lsb_left :
    (tick 0xD001 { (State.reset.setI 0x300#16).writeBytes 0x300 [0x01#8] with
        config := { params with spriteMsbLeft := false } }).map
      (fun t => (t.pixel 0 0, t.pixel 0 7)) = some (true, false) := by decide +kernel
/-- 00_scope.md R6: FONT is any 80 bytes; RESET installs the machine's own. -/
theorem test_other_font :
    (command .reset (State.resetWith { params with font := Vector.replicate 80 0x3C#8 })).map
      (fun t => (t.readByte 0, t.readByte 0x4F, t.readByte 0x50)) = some (0x3C#8, 0x3C#8, 0#8) := by decide +kernel

/-! ## The tick and the host's commands -/

/-- vU1. -/
theorem test_unknown_is_a_no_op :
    (tick 0x0000 State.reset).map
      (fun t => (t.pc, t.report, t.errorMark)) =
    some (0x202#16, some (.unknownOpcode 0#16), false) := by decide
/-- vX4: PC = 0x0FFF. -/
theorem test_fetch_error : (after (step { State.reset with pc := 0xFFF#16 })).map (fun t => (t.pc, t.report)) =
    some (0xFFF#16, some (.error (.address .fetch 0x1000))) := by decide
/-- vT9. -/
theorem test_ttick : (command .ttick ((State.reset.setDt 255#8).setSt 2#8)).map (fun t => (t.dt, t.st, t.tone)) =
    some (254#8, 1#8, true) := by decide
/-- vT6. -/
theorem test_ttick_saturates : (command .ttick State.reset).map (fun t => (t.dt, t.st)) = some (0#8, 0#8) := by decide
/-- 95_test_vectors.md section 2.6, host commands. -/
theorem test_key_press : (command (.keyPress 5) State.reset).map (fun t => (t.isPressed 5, t.isPressed 4)) =
    some (true, false) := by decide
theorem test_key_release : (command (.keyRelease 5) (State.reset.setKey 5 true)).map (fun t => t.isPressed 5) =
    some false := by decide
/-- vX1: RESET clears registers and PC and keeps the held key. -/
theorem test_reset : (command .reset (((State.reset.setV 3#4 7#8).setKey 4 true).setPc 0xFFF#16)).map
    (fun t => (t.getV 3#4, t.pc, t.isPressed 4, t.readByte 0x4B)) = some (0#8, 0x200#16, true, 0xF0#8) := by decide
/-- 10_state.md R38: no font before the first RESET. -/
theorem test_power_on : (command .powerOn State.reset).map (fun t => (t.pc, t.readByte 0, t.readByte 0x4F)) =
    some (0#16, 0#8, 0#8) := by decide
/-- vX7. -/
theorem test_load : (command (.load [0x6A#8, 0x05#8, 0x7A#8]) State.reset).map (fun t => t.readBytes 0x200 4) =
    some [0x6A#8, 0x05#8, 0x7A#8, 0#8] := by decide
/-- 20_memory.md R64 and vM36: a store over the next instruction. -/
theorem test_memory_stays_canonical :
    (tick 0xF155 ((regs2 0#4 0x12#8 1#4 2#8).setI 0x202#16)).map (fun t => (Memory.wf t.config.font t.mem, t.wordAtPc)) =
      some (true, 0x1202#16) := by decide

/-! ## Witnesses: the hypotheses of each statement that has some are met -/

theorem witness_EncodeOfDecodeIsTheWord : decode 0x7A03#16 = .instr (.addImm 0xA#4 0x03#8) := by decide
theorem witness_DecoderFollowsTheOpcodeMap :
    decode 0xF065#16 = .instr (.loadRegs 0#4) ∧ (⟨0xF0FF#16, 0xF065#16⟩ : OpcodeRow) ∈ opcodeMap ∧
    OpcodeRow.admits ⟨0xF0FF#16, 0xF065#16⟩ 0xF065#16 := by decide
theorem witness_FetchIsBigEndian : ({ State.reset with pc := 0x0FFE#16 } : State).pc.toNat ≤ 0x0FFE := by decide

/-- The reset state with the word of LD VA,0x05 at PC, and with that of LD V3,K. -/
def readyToLoad : State := State.reset.withFetchWord 16 0x6A05
def readyToWait : State := State.reset.withFetchWord 16 0xF30A

theorem witness_StepRunsTheDecodedInstruction :
    readyToLoad.canFetch ∧ decode readyToLoad.wordAtPc = .instr (.ldImm 0xA#4 0x05#8) ∧
    readyToLoad.schedule = [] := by decide
/-- The third clause: an ITICK with more commands behind it. -/
theorem witness_StepRunsTheDecodedInstruction_interleaved :
    ({ readyToLoad with schedule := [.itick, .ttick] } : State).canFetch ∧
    decode ({ readyToLoad with schedule := [.itick, .ttick] } : State).wordAtPc = .instr (.ldImm 0xA#4 0x05#8) ∧
    ({ readyToLoad with schedule := [.itick, .ttick] } : State).schedule = .itick :: [.ttick] := by decide
/-- Both clauses: nothing pending, and a command pending. -/
theorem witness_StepPerformsTheNextCommand :
    State.reset.schedule = [] ∧
    ({ State.reset with schedule := [.ttick, .itick] } : State).schedule = .ttick :: [.itick] := by decide
theorem witness_UnknownWordIsAReportedNoOp :
    State.reset.pc.toNat ≤ 0x0FFE ∧ ∀ r ∈ opcodeMap, ¬ r.admits State.reset.wordAtPc := by decide
theorem witness_FetchErrorRepeats :
    ({ State.reset with pc := 0x0FFF#16 } : State).schedule = [] ∧
    0x0FFE < ({ State.reset with pc := 0x0FFF#16 } : State).pc.toNat := by decide
/-- The right side of the equivalence: a pending LOAD of 3585 bytes. -/
theorem witness_OnlyAnOversizedLoadStops :
    ({ State.reset with schedule := [.load (List.replicate 3585 0#8)] } : State).schedule =
      .load (List.replicate 3585 0#8) :: [] ∧ 3584 < (List.replicate 3585 0#8).length :=
  ⟨rfl, by rw [List.length_replicate]; omega⟩
theorem witness_EveryInstructionKeepsItsFrame : ∃ t, exec (.addImm 0xA#4 0x03#8) State.reset = .next t := ⟨_, rfl⟩
theorem witness_TickChangesOnlyWhatTheRuleLists : ∃ t, iTick readyToLoad = .next t := ⟨_, rfl⟩
/-- The clauses of the tick's frame: a timer, the screen, memory and the stack do change under the instructions named. -/
theorem witness_TickChangesOnlyWhatTheRuleLists_clauses :
    (tick 0xF315 (State.reset.setV 3#4 2#8)).map (fun t => t.dt) = some 2#8 ∧
    (tick 0xF318 (State.reset.setV 3#4 2#8)).map (fun t => t.st) = some 2#8 ∧
    (tick 0xD005 State.reset).map (fun t => t.pixel 0 0) = some true ∧
    (tick 0xF055 ((State.reset.setV 0#4 1#8).setI 0x300#16)).map (fun t => t.readByte 0x300) = some 1#8 ∧
    (tick 0x2300 State.reset).map (fun t => t.sp) = some 1 := by decide
theorem witness_TickIgnoresWait : readyToLoad.canFetch := by decide
theorem witness_ShiftParametersMatterOnlyWhereSaid :
    (State.reset.config.shiftSrc = ShiftSrc.vx ∨ (3#4 : Nibble) = 3#4) ∧
    (State.reset.config.flagOrder = FlagOrder.resultLast ∨ (3#4 : Nibble) ≠ 15#4) ∧
    ∃ t, exec (.shrReg 3#4 3#4) State.reset = .next t := ⟨by decide, by decide, _, rfl⟩
/-- The premises of the two orders, each with the destination register 15. -/
theorem witness_ShiftsMoveOneBitOut :
    State.reset.config.flagOrder = .flagLast ∧
    (State.resetWith { params with flagOrder := .resultLast }).config.flagOrder = .resultLast := by decide
/-- Both clauses: a flag writer that completes, and an instruction that neither is one nor names VF. -/
theorem witness_OnlySixInstructionsWriteTheFlag :
    (∃ t, exec (.addReg 1#4 2#4) State.reset = .next t ∧ t.report = some .done) ∧
    (∃ t, exec (.ldImm 14#4 2#8) State.reset = .next t) := ⟨⟨_, rfl, rfl⟩, _, rfl⟩
theorem witness_CompareSkips_lowNibble : opField 0x5121#16 = 0x5#4 ∧ nField 0x5121#16 ≠ 0x0#4 := by decide
theorem witness_JumpSetsThePc_lastByte : (0xFFF#12 : Addr) = 0xFFF#12 := rfl
theorem witness_CallPushesTheReturnAddress :
    (15 : Fin 16).val = ({ State.reset with sp := 15 } : State).sp.val ∧
    ({ State.reset with sp := 15 } : State).sp.val < ({ State.reset with sp := 15 } : State).callSlots := by decide
theorem witness_ReturnPopsTheReturnAddress : 0 < ({ State.reset with sp := 16 } : State).sp.val := by decide
theorem witness_StackErrorsAreReported :
    ({ State.reset with sp := 16 } : State).callSlots ≤ ({ State.reset with sp := 16 } : State).sp.val ∧
    State.reset.sp.val = 0 := by decide
theorem witness_CallsAndReturnsNest :
    ({ State.reset with sp := 14 } : State).sp.val + [0x300#12, 0x400#12].length ≤
      ({ State.reset with sp := 14 } : State).callSlots := by decide
theorem witness_SixteenCallsFitAndNotSeventeen :
    State.reset.sp.val = 0 ∧ State.reset.errorMark = false ∧ (List.replicate 16 0x300#12).length ≤ State.reset.callSlots ∧
    State.reset.callSlots < (List.replicate 17 0x300#12).length := by decide
theorem witness_DecimalDigitsAreStored :
    (State.reset.setI 0xFFD#16).memWf ∧ (State.reset.setI 0xFFD#16).i.toNat + 2 ≤ 0xFFF := by decide
theorem witness_RegistersAreStored :
    (State.reset.setI 0xFF0#16).memWf ∧ (State.reset.setI 0xFF0#16).i.toNat + (15#4).toNat ≤ 0xFFF := by decide
theorem witness_RegistersAreLoaded : (State.reset.setI 0xFF0#16).i.toNat + (15#4).toNat ≤ 0xFFF := by decide
/-- Each of the four forms just outside memory. -/
theorem witness_BlockAccessOutsideMemoryIsReported :
    0xFFF < (State.reset.setI 0xFFE#16).i.toNat + 2 ∧ 0xFFF < (State.reset.setI 0xFF1#16).i.toNat + (15#4).toNat ∧
    0xFFF < (State.reset.setI 0x1000#16).i.toNat + (0#4).toNat ∧
    (2#4 : Nibble) ≠ 0#4 ∧ 0xFFF < (State.reset.setI 0xFFF#16).i.toNat + (2#4).toNat - 1 := by decide
theorem witness_MemWriteChangesOneCell : State.reset.memWf ∧ 0xFFF < 0x1000 ∧ 0xFFF ≤ 0xFFF := by decide
theorem witness_CanonicalMemoriesAreEqualData :
    Memory.wf params.font [(0, 0#8), (0x300, 7#8)] = true ∧
    ∀ a, readCell params.font [(0, 0#8), (0x300, 7#8)] a = readCell params.font [(0, 0#8), (0x300, 7#8)] a :=
  ⟨by decide, fun _ => rfl⟩
theorem witness_StoresAreSeenByTheNextFetch :
    (State.reset.setI 0x202#16).memWf ∧ (State.reset.setI 0x202#16).i.toNat + (1#4).toNat ≤ 0xFFF ∧
    (0#4).toNat < (1#4).toNat := by decide
/-- A draw up to the last byte of memory, and an empty one with I outside it. -/
theorem witness_DrawTogglesAndDetectsCollision :
    (State.reset.setI 0xFF1#16).i.toNat + (15#4).toNat - 1 ≤ 0xFFF ∧ (0#4 : Nibble) = 0#4 := by decide
/-- A sprite bit falls on a lit pixel, and none does: both outcomes of VF occur. -/
theorem witness_DrawTogglesAndDetectsCollision_clauses :
    (tick 0xD005 (State.reset.setFb (setPixel State.reset.fb 0 0 true))).map (fun t => t.getV 15#4) = some 1#8 ∧
    (tick 0xD005 State.reset).map (fun t => t.getV 15#4) = some 0#8 := by decide
theorem witness_DrawingTwiceRestoresTheScreen :
    State.reset.i.toNat + (5#4).toNat - 1 ≤ 0xFFF ∧
    ∃ t, exec (.drw 0#4 1#4 5#4) State.reset = .next t ∧ t.getV 0#4 = State.reset.getV 0#4 ∧
      t.getV 1#4 = State.reset.getV 1#4 := ⟨by decide, _, rfl, rfl, rfl⟩
theorem witness_KeySkipsTestTheHeldKey : ((State.reset.setV 5#4 15#8).getV 5#4).toNat = (15 : Fin 16).val := by decide
/-- A clause for each value of KEY_OOR. -/
theorem witness_KeyCodeAboveFifteenIsReported :
    15 < ((State.reset.setV 5#4 16#8).getV 5#4).toNat ∧ State.reset.config.keyOor = .fault ∧
    (State.resetWith { params with keyOor := .mask }).config.keyOor = .mask ∧
    (∃ k : Fin 16, k.val = ((State.reset.setV 5#4 16#8).getV 5#4).toNat % 16 ∧ State.reset.isPressed k = false) ∧
    (State.resetWith { params with keyOor := .notPressed }).config.keyOor = .notPressed := by decide
theorem witness_WaitForKeyTakesTheLowestHeldKey :
    ((State.reset.setKey 7 true).setKey 2 true).isPressed 2 = true ∧
    ∀ q : Fin 16, q < 2 → ((State.reset.setKey 7 true).setKey 2 true).isPressed q = false := by decide
theorem witness_HoldingTickChangesOnlyWait :
    readyToWait.canFetch ∧ decode readyToWait.wordAtPc = .instr (.ldRegKey 0x3#4) ∧
    ∀ k, readyToWait.isPressed k = false := by decide
theorem witness_SoundTimerIsWrittenAndNeverRead :
    (¬ ∃ x, Instr.ldRegDt 3#4 = .ldStReg x) ∧ ∃ t, exec (.ldRegDt 3#4) State.reset = .next t :=
  ⟨by simp, _, rfl⟩
theorem witness_ResetCommandValues :
    ({ State.reset with schedule := [.reset] } : State).schedule = .reset :: [] := by decide
/-- Both clauses: an image that fits exactly, and one byte more. -/
theorem witness_LoadPlacesTheImage :
    ({ State.reset with schedule := [.load (List.replicate 3584 1#8)] } : State).schedule =
      .load (List.replicate 3584 1#8) :: [] ∧ State.reset.memWf ∧ (List.replicate 3584 1#8).length ≤ 3584 ∧
    3584 < (List.replicate 3585 1#8).length :=
  ⟨rfl, rfl, by rw [List.length_replicate], by rw [List.length_replicate]; omega⟩
theorem witness_EveryStepKeepsMemoryCanonical :
    readyToLoad.memWf ∧ ∃ t, step readyToLoad = .next t := ⟨by decide, _, rfl⟩
theorem witness_EveryStepKeepsThePcBounded :
    readyToLoad.pcBounded ∧ ∃ t, step readyToLoad = .next t := ⟨by decide, _, rfl⟩
theorem witness_TheErrorMarkIsNeverCleared :
    (∃ t, step { readyToLoad with errorMark := true } = .next t) ∧
    (nextCommand { State.reset with schedule := [.itick, .ttick], pc := 0x0FFF#16 }).1 = .itick ∧
    (∃ t, step { State.reset with schedule := [.itick, .ttick], pc := 0x0FFF#16 } = .next t ∧ t.errorMark = true ∧
      t.report = some (.error (.address .fetch 0x1000))) := ⟨⟨_, rfl⟩, rfl, _, rfl, rfl, rfl⟩

end Sys2Proof.Tests
end

section
/-! PROOFS. 00_scope.md section 5: how a step takes the host's next command from the schedule. -/

namespace Sys2Proof.Machine

@[simp] theorem perform_itick (s : State) : perform .itick s = iTick s := rfl

/-- Settles O8: the two cases of the schedule are `step_nil` and `step_cons`, and the ITICK of an empty schedule is the
host's command ITICK by `perform_itick`. -/
theorem stepPerformsTheNextCommand : Obligations.StepPerformsTheNextCommand := by
  intro s
  constructor
  · intro hnil
    exact ⟨step_nil hnil, (step_nil hnil).trans (perform_itick s).symm⟩
  · intro c rest hcons
    exact step_cons hcons

end Sys2Proof.Machine
end

section
/-! PROOFS. The frame of every instruction: one rule per operation on the state, then one line per instruction (files 41
to 45, 60_exceptions.md R257). -/

namespace Sys2Proof.Machine

variable {W : Part → Prop} {s t u : State}

/-! ### One rule per operation -/

theorem Frame.refl (W : Part → Prop) (s : State) : Frame W s s := by constructor <;> intros <;> rfl

theorem Frame.complete (h : Frame W s t) : Frame W s t.complete := { h with }

theorem Frame.raise (h : Frame W s t) (hW : W .mark) (e : TickError) : Frame W s (t.raise e) :=
  { h with mark := fun hn => absurd hW hn }

theorem Frame.setV (h : Frame W s t) {x : Nibble} (hW : W (.reg x)) (b : Byte) : Frame W s (t.setV x b) :=
  { h with
    regs := fun r hr => by
      have hne : r ≠ x := fun e => hr (e ▸ hW)
      rw [State.getV_setV, if_neg hne, h.regs r hr] }

theorem Frame.setI (h : Frame W s t) (hW : W .index) (a : Word) : Frame W s (t.setI a) :=
  { h with index := fun hn => absurd hW hn }

theorem Frame.setPc (h : Frame W s t) (hW : W .pc) (a : Word) : Frame W s (t.setPc a) :=
  { h with pc := fun hn => absurd hW hn }

theorem Frame.skipIf (h : Frame W s t) (hW : W .pc) (c : Bool) : Frame W s (t.skipIf c) := by
  cases c with
  | false => exact h
  | true => exact h.setPc hW _

theorem Frame.setDt (h : Frame W s t) (hW : W .delay) (b : Byte) : Frame W s (t.setDt b) :=
  { h with delay := fun hn => absurd hW hn }

theorem Frame.setSt (h : Frame W s t) (hW : W .sound) (b : Byte) : Frame W s (t.setSt b) :=
  { h with sound := fun hn => absurd hW hn }

theorem Frame.setWait (h : Frame W s t) (hW : W .wait) (w : WaitStatus) : Frame W s (t.setWait w) :=
  { h with wait := fun hn => absurd hW hn }

theorem Frame.countDraw (h : Frame W s t) (hW : W .draws) : Frame W s t.countDraw :=
  { h with draws := fun hn => absurd hW hn }

theorem Frame.setFb (h : Frame W s t) {f : Screen}
    (hf : ∀ row col, ¬ W (.pixel row col) → pixelAt f row col = t.pixel row col) : Frame W s (t.setFb f) :=
  { h with pixels := fun row col hn => (hf row col hn).trans (h.pixels row col hn) }

theorem Frame.writeBytes (h : Frame W s t) {a : Nat} {bs : List Byte} (hW : ∀ q, inRange a bs.length q → W (.cell q)) :
    Frame W s (t.writeBytes a bs) :=
  { h with
    cells := fun q hq => by
      have hout : q < a ∨ a + bs.length ≤ q := by
        by_contra hin
        exact hq (hW q ⟨by omega, by omega⟩)
      rw [State.writeBytes_readByte, readCell_writeCells_outside _ _ _ hout]
      exact h.cells q hq }

theorem Frame.setRegBlock (h : Frame W s t) {k : Nat} {bs : List Byte}
    (hW : ∀ j, j < k + bs.length → W (.reg (BitVec.ofNat 4 j))) : Frame W s (t.setRegBlock k bs) := by
  induction bs generalizing t k with
  | nil => exact h
  | cons b bs ih =>
    rw [List.length_cons] at hW
    exact ih (h.setV (hW k (by omega)) b) fun j hj => hW j (by omega)

theorem Frame.setFlag (h : Frame W s t) (hW : W (.reg flagReg)) (g : Bool) : Frame W s (t.setFlag g) := h.setV hW _

theorem Frame.resultThenFlag (h : Frame W s t) {x : Nibble} (hx : W (.reg x)) (hf : W (.reg flagReg)) (b : Byte)
    (g : Bool) : Frame W s (t.resultThenFlag x b g) := (h.setV hx b).setFlag hf g

theorem Frame.shiftWrites (h : Frame W s t) {x : Nibble} (hx : W (.reg x)) (hf : W (.reg flagReg)) (b : Byte)
    (g : Bool) : Frame W s (t.shiftWrites x b g) := by
  unfold State.shiftWrites
  cases t.config.flagOrder with
  | flagLast => exact h.resultThenFlag hx hf b g
  | resultLast => exact (h.setFlag hf g).setV hx b

theorem Frame.pollKey (h : Frame W s t) {x : Nibble} (hx : W (.reg x)) (hpc : W .pc) (hw : W .wait) :
    Frame W s (t.pollKey x) := by
  rcases pollKey_cases t x with ⟨k, -, he⟩ | ⟨-, he⟩ <;> rw [he]
  · exact h.setV hx _
  · exact (h.setPc hpc _).setWait hw _

theorem Frame.push {a : Word} (h : s.push a = .ok t) (hsp : W .sp)
    (hslot : ∀ k : Fin 16, k.val = s.sp.val → W (.slot k)) : Frame W s t := by
  rcases push_cases s a with ⟨-, h16, he⟩ | ⟨-, he⟩
  · cases h.symm.trans he
    exact { Frame.refl W s with
      slots := fun k hk => Vector.getElem_set_ne h16 k.isLt fun e => hk (hslot k e.symm)
      sp := fun hn => absurd hsp hn }
  · cases h.symm.trans he

theorem Frame.pop {r : Word × State} (h : s.pop = .ok r) (hsp : W .sp) : Frame W s r.2 := by
  rcases pop_cases s with ⟨-, he⟩ | ⟨-, h16, he⟩
  · cases h.symm.trans he
  · cases h.symm.trans he
    exact { Frame.refl W s with sp := fun hn => absurd hsp hn }

/-! ### The end of an instruction -/

/-- What an instruction whose effect is computed from a check, a read or a pop can answer. -/
theorem conclude_map_cases {α : Type} {r : Except TickError α} {g : α → State} (h : conclude s (r.map g) = .next u) :
    (∃ a, r = .ok a ∧ u = (g a).complete) ∨ (∃ e, r = .error e ∧ u = s.raise e) := by
  cases r with
  | ok a => exact .inl ⟨a, rfl, (Host.Outcome.next.inj h).symm⟩
  | error e => exact .inr ⟨e, rfl, (Host.Outcome.next.inj h).symm⟩

/-- An instruction that cannot fail has the frame of its effect. -/
theorem Frame.of_conclude_ok (h : conclude s (.ok t) = .next u) (ht : Frame W s t) : Frame W s u := by
  cases h
  exact ht.complete

/-- An instruction that can fail changes the mark alone when it does. -/
theorem Frame.of_conclude {r : Except TickError State} (h : conclude s r = .next u) (hmark : W .mark)
    (ht : ∀ t, r = .ok t → Frame W s t) : Frame W s u := by
  rcases conclude_cases h with ⟨t, hr, rfl⟩ | ⟨e, -, rfl⟩
  · exact (ht t hr).complete
  · exact (Frame.refl W s).raise hmark e

/-- The same where the effect is computed from an answer. -/
theorem Frame.of_conclude_map {α : Type} {r : Except TickError α} {g : α → State}
    (h : conclude s (r.map g) = .next u) (hmark : W .mark) (ht : ∀ a, r = .ok a → Frame W s (g a)) : Frame W s u := by
  rcases conclude_map_cases h with ⟨a, hr, rfl⟩ | ⟨e, -, rfl⟩
  · exact (ht a hr).complete
  · exact (Frame.refl W s).raise hmark e

/-! ### Blocks and sprites -/

theorem memRead_length {sp : Space} {a n : Nat} {bs : List Byte} (h : memRead s sp a n = .ok bs) : bs.length = n := by
  rcases memRead_cases s sp a n with ⟨-, he⟩ | ⟨-, he⟩
  · cases h.symm.trans he
    exact readBytes_length s a n
  · cases h.symm.trans he

theorem Frame.memWrite {a : Nat} {bs : List Byte} (h : memWrite s a bs = .ok t)
    (hW : ∀ q, inRange a bs.length q → W (.cell q)) : Frame W s t := by
  rcases memWrite_cases s a bs with ⟨-, he⟩ | ⟨-, he⟩
  · cases h.symm.trans he
    exact (Frame.refl W s).writeBytes hW
  · cases h.symm.trans he

theorem Frame.composed {x y n : Nibble} {bs : List Byte} (hlen : bs.length = n.toNat) (hf : W (.reg flagReg))
    (hW : ∀ row col, s.footprint x y n row col → W (.pixel row col)) :
    Frame W s (s.composed (s.getV x) (s.getV y) bs) := by
  refine Frame.setFlag (Frame.setFb (Frame.refl W s) fun row col hn => ?_) hf _
  refine drawRows_outside _ _ _ _ _ _ ?_
  rintro ⟨j, i, -, hj, hi, hrow, hcol⟩
  exact hn (hW row col ⟨j, i, by omega, hi, hrow, hcol⟩)

/-! ### Every instruction -/

/-- Whatever an instruction does, it changes no part of the state but those its rule lists. -/
theorem exec_frame {i : Instr} (h : exec i s = .next t) : Frame (mayWrite i s) s t := by
  have h0 : Frame (mayWrite i s) s s := Frame.refl _ s
  cases i with
  | cls => exact .of_conclude_ok h (h0.setFb fun row col hn => absurd ⟨row, col, rfl⟩ hn)
  | ret =>
    refine .of_conclude_map h (.inr (.inr rfl)) fun r hr => ?_
    exact (Frame.pop hr (.inr (.inl rfl))).setPc (.inl rfl) _
  | jp | jpV0 => exact .of_conclude_ok h (h0.setPc rfl _)
  | call =>
    refine .of_conclude_map h (.inr (.inr (.inl rfl))) fun r hr => ?_
    exact (Frame.push hr (.inr (.inl rfl)) fun k hk => .inr (.inr (.inr ⟨k, hk, rfl⟩))).setPc (.inl rfl) _
  | seImm | sneImm | seReg | sneReg => exact .of_conclude_ok h (h0.skipIf rfl _)
  | ldImm | addImm | ldReg | orReg | andReg | xorReg | ldRegDt => exact .of_conclude_ok h (h0.setV rfl _)
  | addReg | subReg | subnReg => exact .of_conclude_ok h (h0.resultThenFlag (.inl rfl) (.inr rfl) _ _)
  | shrReg | shlReg => exact .of_conclude_ok h (h0.shiftWrites (.inl rfl) (.inr rfl) _ _)
  | rnd => exact .of_conclude_ok h ((h0.countDraw (.inr rfl)).setV (.inl rfl) _)
  | ldI | addI | ldFont => exact .of_conclude_ok h (h0.setI rfl _)
  | drw x y n =>
    refine .of_conclude_map h (.inr (.inl rfl)) fun bs hbs => ?_
    exact .composed (memRead_length hbs) (.inl rfl) fun row col hp => .inr (.inr ⟨row, col, hp, rfl⟩)
  | skp | sknp => exact .of_conclude_map h (.inr rfl) fun held _ => h0.skipIf (.inl rfl) _
  | ldRegKey => exact .of_conclude_ok h (h0.pollKey (.inl rfl) (.inr (.inl rfl)) (.inr (.inr rfl)))
  | ldDtReg => exact .of_conclude_ok h (h0.setDt rfl _)
  | ldStReg => exact .of_conclude_ok h (h0.setSt rfl _)
  | ldBcd => exact .of_conclude h (.inl rfl) fun u hu => .memWrite hu fun q hq => .inr ⟨q, hq, rfl⟩
  | storeRegs =>
    refine .of_conclude h (.inl rfl) fun u hu => .memWrite hu fun q hq => ?_
    rw [regBlock_length] at hq
    exact .inr ⟨q, hq, rfl⟩
  | loadRegs x =>
    refine .of_conclude_map h (.inl rfl) fun bs hbs => h0.setRegBlock fun j hj => .inr ⟨_, ?_, rfl⟩
    rw [memRead_length hbs, blockCount] at hj
    rw [BitVec.toNat_ofNat]
    omega

end Sys2Proof.Machine
end

section
/-! PROOFS. 10_state.md section 7 (R37, R38): what the accessors read in the state after RESET and after POWER_ON, and what a
block of bytes written to memory reads as. -/

namespace Sys2Proof.Machine

variable {f : Font}

/-! ### The state after RESET -/

@[simp] theorem resetWith_pc (p : Params) : (State.resetWith p).pc = 0x200#16 := rfl

@[simp] theorem resetWith_getV (p : Params) (r : Nibble) : (State.resetWith p).getV r = 0#8 :=
  Vector.getElem_replicate r.isLt

theorem resetWith_slot (p : Params) (k : Fin 16) : (State.resetWith p).stack[k] = 0#16 :=
  Vector.getElem_replicate k.isLt

@[simp] theorem resetWith_isPressed (p : Params) (k : Fin 16) : (State.resetWith p).isPressed k = false :=
  Vector.getElem_replicate k.isLt

@[simp] theorem pixelAt_clearScreen (row : Fin 32) (col : Fin 64) : pixelAt clearScreen row col = false := by
  rw [pixelAt, clearScreen, Vector.getElem_replicate, BitVec.getLsbD_zero]

@[simp] theorem resetWith_pixel (p : Params) (row : Fin 32) (col : Fin 64) :
    (State.resetWith p).pixel row col = false := pixelAt_clearScreen row col

@[simp] theorem resetWith_readByte (p : Params) (a : Nat) : (State.resetWith p).readByte a = unlistedByte p.font a := rfl

theorem unlistedByte_font (a : Nat) (h : a < Config.fontBytes) : unlistedByte f a = f[a] := dif_pos h

/-! ### The state after POWER_ON -/

/-- A block of writes inside memory is read back. -/
theorem readCell_writeCells_inside {m : Memory} {a : Nat} {bs : List Byte} (hm : Memory.wf f m = true)
    (hend : a + bs.length ≤ Config.memSize) {k : Nat} (hk : k < bs.length) :
    readCell f (writeCells f m a bs) (a + k) = bs[k] := by
  induction bs generalizing m a k with
  | nil => cases hk
  | cons b bs ih =>
    rw [List.length_cons] at hend hk
    rw [writeCells]
    cases k with
    | zero =>
      rw [readCell_writeCells_outside _ _ _ (.inl (by omega))]
      exact readCell_writeCell_self b (by omega) hm
    | succ k =>
      rw [show a + (k + 1) = a + 1 + k by omega]
      exact ih (wf_writeCell a b hm) (by omega) (by omega)

/-- Memory at power-on is zero, the font's addresses included. -/
theorem readCell_zeroMemory (a : Nat) : readCell f (zeroMemory f) a = 0#8 := by
  by_cases h : a < Config.fontBytes
  · have hin := readCell_writeCells_inside (f := f) (m := []) (a := 0) (bs := List.replicate Config.fontBytes 0#8)
      (k := a) rfl (by decide) (by rwa [List.length_replicate])
    rwa [List.getElem_replicate, Nat.zero_add] at hin
  · rw [zeroMemory, readCell_writeCells_outside _ _ _ (.inr (by rw [List.length_replicate]; omega)), readCell_nil,
      unlistedByte_beyond a (Nat.not_lt.mp h)]

@[simp] theorem cmdPowerOn_pc (s : State) : (cmdPowerOn s).pc = 0#16 := rfl

@[simp] theorem cmdPowerOn_mem (s : State) : (cmdPowerOn s).mem = zeroMemory s.config.font := by
  simp only [cmdPowerOn, State.powerOn, State.keepHost]

@[simp] theorem cmdPowerOn_config (s : State) : (cmdPowerOn s).config = s.config := rfl

@[simp] theorem cmdPowerOn_readByte (s : State) (a : Nat) : (cmdPowerOn s).readByte a = 0#8 := by
  rw [State.readByte, cmdPowerOn_mem, cmdPowerOn_config, readCell_zeroMemory]

/-! ### The statements about the two states -/

/-- Settles O53: POWER_ON differs from the reset state in PC and in memory alone, and memory reads zero by
`readCell_zeroMemory`. -/
theorem powerOnIsAllZero : Obligations.PowerOnIsAllZero := by
  intro s
  refine ⟨cmdPowerOn s, rfl, resetWith_getV s.config, rfl, cmdPowerOn_pc s, rfl, resetWith_slot s.config, rfl, rfl, ?_,
    resetWith_pixel s.config, resetWith_isPressed s.config, rfl⟩
  exact fun a _ => cmdPowerOn_readByte s a

/-- Settles O54: the step performs `cmdReset`, which is the reset state of the machine's own parameters but for KEY and
the model's fields. -/
theorem resetCommandValues : Obligations.ResetCommandValues := by
  intro s rest hsched
  refine ⟨cmdReset { s with schedule := rest }, step_cons hsched, resetWith_getV s.config, rfl, resetWith_pc s.config, rfl,
    resetWith_slot s.config, rfl, rfl, ?font, ?above, resetWith_pixel s.config, fun _ => rfl, rfl, rfl⟩
  case font => exact fun a ha => unlistedByte_font a ha
  case above => exact fun a ha _ => unlistedByte_beyond a ha

/-- Settles O56: each element by its lemma above; memory lists no cell, so it reads as the font and zero. -/
theorem resetStateValues : Obligations.ResetStateValues := by
  refine ⟨rfl, ?_⟩
  rintro p _ rfl
  refine ⟨resetWith_getV p, rfl, resetWith_pc p, rfl, resetWith_slot p, rfl, rfl, ?font, ?above, resetWith_pixel p,
    resetWith_isPressed p, rfl⟩
  case font => exact fun a ha => unlistedByte_font a ha
  case above => exact fun a ha => unlistedByte_beyond a ha

end Sys2Proof.Machine
end

section
/-! PROOFS. 10_state.md section 2 (R25): where PC can go in one instruction, what a stack slot can become, and that both stay
within their bounds over every step. -/

namespace Sys2Proof.Machine

variable {i : Instr} {s t : State}

/-- The values PC can have after an instruction that began with PC (the advanced one) and the slots of `s`: the moves of
41_flow.md, and PC back on a waiting LD Vx,K (45_keypad_timers.md R226). -/
inductive NextPc (s : State) : Word → Prop where
  | next : NextPc s s.pc
  | skip : NextPc s (s.pc + 2#16)
  | hold : NextPc s (s.pc - 2#16)
  | jump (nnn : Addr) : NextPc s (zextAddr nnn)
  | indexed (nnn : Addr) (b : Byte) : NextPc s (zextAddr nnn + zextByte b)
  | popped (k : Fin 16) : NextPc s s.stack[k]

theorem NextPc.skipIf (s : State) (c : Bool) : NextPc s (s.skipIf c).pc := by
  cases c with
  | false => exact .next
  | true => exact .skip

theorem NextPc.pollKey (s : State) (x : Nibble) : NextPc s (s.pollKey x).pc := by
  rcases pollKey_cases s x with ⟨k, -, he⟩ | ⟨-, he⟩ <;> rw [he]
  · exact .next
  · exact .hold

theorem NextPc.pop {r : Word × State} (h : s.pop = .ok r) : NextPc s r.1 := by
  rcases pop_cases s with ⟨-, he⟩ | ⟨-, h16, he⟩
  · cases h.symm.trans he
  · cases h.symm.trans he
    exact .popped ⟨s.sp.val - 1, h16⟩

/-- The PC of an instruction whose effect is computed from an answer; where that is an error PC stays. -/
theorem NextPc.of_conclude_map {α : Type} {r : Except TickError α} {g : α → State}
    (h : conclude s (r.map g) = .next t) (hok : ∀ a, r = .ok a → NextPc s (g a).pc) : NextPc s t.pc := by
  rcases conclude_map_cases h with ⟨a, hr, rfl⟩ | ⟨e, -, rfl⟩
  · exact hok a hr
  · exact .next

/-- Where an instruction can leave PC. -/
theorem exec_nextPc (h : exec i s = .next t) : NextPc s t.pc := by
  by_cases hw : mayWrite i s .pc
  · cases i with
    | ret => exact .of_conclude_map h fun r hr => .pop hr
    | jp nnn => cases h; exact .jump nnn
    | call nnn => exact .of_conclude_map h fun r _ => .jump nnn
    | jpV0 nnn => cases h; exact .indexed nnn (s.getV 0#4)
    | seImm | sneImm | seReg | sneReg => cases h; exact .skipIf s _
    | skp | sknp => exact .of_conclude_map h fun held _ => .skipIf s _
    | ldRegKey x => cases h; exact .pollKey s x
    | _ => simp [mayWrite] at hw
  · rw [(exec_frame h).pc hw]
    exact .next

theorem push_slot {a : Word} (h : s.push a = .ok t) (k : Fin 16) : t.stack[k] = s.stack[k] ∨ t.stack[k] = a := by
  rcases push_cases s a with ⟨-, h16, he⟩ | ⟨-, he⟩
  · cases h.symm.trans he
    rw [Fin.getElem_fin, Vector.getElem_set]
    split
    · exact .inr rfl
    · exact .inl rfl
  · cases h.symm.trans he

/-- What an instruction can leave in a stack slot: what it held, or the PC a CALL pushes. -/
theorem exec_slot (h : exec i s = .next t) (k : Fin 16) : t.stack[k] = s.stack[k] ∨ t.stack[k] = s.pc := by
  by_cases hw : mayWrite i s (.slot k)
  · cases i with
    | call nnn =>
      rcases conclude_map_cases h with ⟨u, hu, rfl⟩ | ⟨e, -, rfl⟩
      · exact push_slot hu k
      · exact .inl rfl
    | _ => simp [mayWrite] at hw
  · exact .inl ((exec_frame h).slots k hw)

theorem zextAddr_toNat (nnn : Addr) : (zextAddr nnn).toNat = nnn.toNat :=
  BitVec.toNat_setWidth_of_le (by decide)

theorem zextByte_toNat (b : Byte) : (zextByte b).toNat = b.toNat :=
  BitVec.toNat_setWidth_of_le (by decide)

/-- Every move of PC ends at most at 0x10FE, the highest target of JP V0 (41_flow.md R133): 0xFFF + 0xFF. -/
theorem NextPc.le {a : Word} (h : NextPc s a) (hlow : 2 ≤ s.pc.toNat) (hhigh : s.pc.toNat ≤ 0x1000)
    (hslots : ∀ k : Fin 16, s.stack[k].toNat ≤ 0x1000) : a.toNat ≤ 0x10FE := by
  cases h with
  | next => omega
  | skip => rw [BitVec.toNat_add, BitVec.toNat_ofNat]; omega
  | hold => rw [BitVec.toNat_sub, BitVec.toNat_ofNat]; omega
  | jump nnn =>
    have := nnn.isLt
    rw [zextAddr_toNat]
    omega
  | indexed nnn b =>
    have := nnn.isLt
    have := b.isLt
    rw [BitVec.toNat_add, zextAddr_toNat, zextByte_toNat]
    omega
  | popped k =>
    have := hslots k
    omega

/-- An instruction that begins where an advance can have left PC keeps the bounds. -/
theorem exec_pcBounded (h : exec i s = .next t) (hlow : 2 ≤ s.pc.toNat) (hhigh : s.pc.toNat ≤ 0x1000)
    (hslots : ∀ k : Fin 16, s.stack[k].toNat ≤ 0x1000) : t.pcBounded := by
  refine ⟨(exec_nextPc h).le hlow hhigh hslots, fun k => ?_⟩
  rcases exec_slot h k with hk | hk <;> rw [hk]
  · exact hslots k
  · exact hhigh

/-- After a fetch that succeeded the advance leaves PC between 2 and 0x1000 and does not wrap. -/
theorem advance_pc_toNat (h : s.canFetch) : s.advance.pc.toNat = s.pc.toNat + 2 := by
  rw [State.advance_pc, BitVec.toNat_add, BitVec.toNat_ofNat]
  omega

theorem iTick_pcBounded (hs : s.pcBounded) (h : iTick s = .next t) : t.pcBounded := by
  obtain ⟨hpc, hslots⟩ := hs
  rcases iTick_cases s with ⟨hf, i, -, he⟩ | ⟨hf, -, he⟩ | ⟨-, he⟩
  · have hadv := advance_pc_toNat hf
    exact exec_pcBounded (he.symm.trans h) (by omega) (by omega) hslots
  · cases he.symm.trans h
    have hadv := advance_pc_toNat hf
    exact ⟨by rw [State.reportUnknown_pc]; omega, hslots⟩
  · cases he.symm.trans h
    exact ⟨hpc, hslots⟩

theorem resetWith_pcBounded (p : Params) : (State.resetWith p).pcBounded :=
  ⟨by rw [resetWith_pc]; decide, fun k => by rw [resetWith_slot]; decide⟩

/-- LOAD has a move only for an image that fits, and writes it (70_reset_and_hazards.md R282). -/
theorem cmdLoad_eq_next {image : List Byte} (h : cmdLoad image s = .next t) :
    image.length ≤ Config.maxImage ∧ t = s.writeBytes Config.progOrigin image := by
  unfold cmdLoad at h
  split at h
  · cases h; exact ⟨‹_›, rfl⟩
  · cases h

theorem perform_pcBounded {c : Command} (hs : s.pcBounded) (h : perform c s = .next t) : t.pcBounded := by
  cases c with
  | itick => exact iTick_pcBounded hs h
  | load image => rw [(cmdLoad_eq_next h).2]; exact hs
  | powerOn => cases h; exact ⟨by rw [cmdPowerOn_pc]; decide, (resetWith_pcBounded s.config).2⟩
  | reset => cases h; exact resetWith_pcBounded s.config
  | ttick | keyPress | keyRelease => cases h; exact hs

/-- Settles O58: `perform` keeps the bounds, and taking a command off the schedule touches neither PC nor the stack. -/
theorem everyStepKeepsThePcBounded : Obligations.EveryStepKeepsThePcBounded := by
  intro s t hs h
  cases hsched : s.schedule with
  | nil => exact iTick_pcBounded hs ((step_nil hsched).symm.trans h)
  | cons c rest => exact perform_pcBounded (s := { s with schedule := rest }) hs ((step_cons hsched).symm.trans h)

end Sys2Proof.Machine
end

section
/-! PROOFS. 10_state.md sections 2, 5, 6 and 7: the invariants at reset, the canonical list of memory (R31, log entry 21) and
WAIT, read by no rule (R34). -/

namespace Sys2Proof.Machine

/-- Settles O60: the canonical form by `wf_resetWith`, the bounds by `resetWith_pcBounded`. -/
theorem resetStateMeetsTheInvariants : Obligations.ResetStateMeetsTheInvariants := by
  have hreset (p : Params) :
      (State.resetWith p).memWf ∧ (State.resetWith p).pcBounded ∧ (State.resetWith p).noError :=
    ⟨wf_resetWith p, resetWith_pcBounded p, rfl⟩
  exact ⟨hreset params, hreset⟩

/-! ### Equal contents are equal lists -/

variable {f : Font}

/-- A canonical list with a first cell differs in content, at that cell's address, from one whose cells all lie above. -/
theorem readCell_ne_of_wf_cons {a : Nat} {b : Byte} {m m' : Memory} (h : Memory.wf f ((a, b) :: m) = true)
    (hlt : ∀ c ∈ m', a < c.1) : readCell f ((a, b) :: m) a ≠ readCell f m' a := by
  obtain ⟨-, hb, -, -⟩ := (wf_cons a b m).mp h
  rwa [readCell_cons, if_pos rfl, readCell_of_lt hlt]

/-- Two canonical lists of equal content begin at the same address: the lower first cell would be missing in the other. -/
theorem first_addr_le_of_readCell_eq {a a' : Nat} {b b' : Byte} {m m' : Memory}
    (h : Memory.wf f ((a, b) :: m) = true) (h' : Memory.wf f ((a', b') :: m') = true)
    (heq : ∀ q, readCell f ((a, b) :: m) q = readCell f ((a', b') :: m') q) : a' ≤ a := by
  obtain ⟨-, -, hlt', -⟩ := (wf_cons a' b' m').mp h'
  by_contra hcon
  refine readCell_ne_of_wf_cons h (fun c hc => ?_) (heq a)
  rcases List.mem_cons.mp hc with rfl | hc
  · exact Nat.lt_of_not_le hcon
  · exact Nat.lt_trans (Nat.lt_of_not_le hcon) (hlt' c hc)

/-- Canonical lists of equal content are equal. -/
theorem eq_of_readCell_eq {m m' : Memory} (hm : Memory.wf f m = true) (hm' : Memory.wf f m' = true)
    (heq : ∀ q, readCell f m q = readCell f m' q) : m = m' := by
  induction m generalizing m' with
  | nil =>
    cases m' with
    | nil => rfl
    | cons c' m' => exact absurd (heq c'.1).symm (readCell_ne_of_wf_cons hm' (by simp))
  | cons c m ih =>
    cases m' with
    | nil => exact absurd (heq c.1) (readCell_ne_of_wf_cons hm (by simp))
    | cons c' m' =>
      obtain ⟨a, b⟩ := c
      obtain ⟨a', b'⟩ := c'
      obtain rfl : a = a' := Nat.le_antisymm (first_addr_le_of_readCell_eq hm' hm fun q => (heq q).symm)
        (first_addr_le_of_readCell_eq hm hm' heq)
      have hb := heq a
      rw [readCell_cons, readCell_cons, if_pos rfl, if_pos rfl] at hb
      obtain ⟨-, -, hlt, hwf⟩ := (wf_cons a b m).mp hm
      obtain ⟨-, -, hlt', hwf'⟩ := (wf_cons a b' m').mp hm'
      have htail : m = m' := ih hwf hwf' fun q => by
        by_cases hq : q = a
        · rw [hq, readCell_of_lt hlt, readCell_of_lt hlt']
        · simpa only [readCell_cons, if_neg hq] using heq q
      rw [hb, htail]

/-- Settles O40, by `eq_of_readCell_eq`: the first cells agree in address and byte, and then the tails read the same. -/
theorem canonicalMemoriesAreEqualData : Obligations.CanonicalMemoriesAreEqualData :=
  fun _ _ _ hm hm' heq => eq_of_readCell_eq hm hm' heq

/-! ### WAIT is written by the advance before any rule runs -/

theorem advance_withWait (s : State) (w : WaitStatus) : ({ s with wait := w } : State).advance = s.advance := rfl

theorem fetch_withWait (s : State) (w : WaitStatus) : ({ s with wait := w } : State).fetch = s.fetch := rfl

/-- Settles O15: the fetch reads no WAIT, and once it has succeeded the advance overwrites WAIT. -/
theorem tickIgnoresWait : Obligations.TickIgnoresWait := by
  intro s w hfetch
  rcases fetch_cases s with ⟨-, hf⟩ | ⟨hpc, -⟩
  · simp only [iTick, fetch_withWait, hf, advance_withWait]
  · exact absurd hfetch (Nat.not_le.mpr hpc)

end Sys2Proof.Machine
end

section
/-! PROOFS. 10_state.md section 1 (R21): which instructions write VF, and that the six of section 3 leave it 0 or 1. -/

namespace Sys2Proof.Machine

variable {i : Instr} {s t : State}

theorem flagByte_eq_zero_or_one (g : Bool) : flagByte g = 0#8 ∨ flagByte g = 1#8 := by
  cases g with
  | false => exact .inl rfl
  | true => exact .inr rfl

/-- The byte of VF is one a flag has. -/
def State.flagIsBit (s : State) : Prop := s.getV flagReg = 0#8 ∨ s.getV flagReg = 1#8

theorem setFlag_flagIsBit (s : State) (g : Bool) : (s.setFlag g).flagIsBit := by
  rw [State.flagIsBit, State.getV_setFlag, if_pos rfl]
  exact flagByte_eq_zero_or_one g

theorem shiftWrites_flagIsBit {x : Nibble} (h : x ≠ flagReg ∨ s.config.flagOrder = .flagLast) (b : Byte) (g : Bool) :
    (s.shiftWrites x b g).flagIsBit := by
  rw [State.flagIsBit, shiftWrites_getV, if_pos ⟨rfl, h⟩]
  exact flagByte_eq_zero_or_one g

/-- A draw that completes has set VF last; one that does not reports an error (44_display.md R202). -/
theorem execDrw_flagIsBit {x y n : Nibble} (h : execDrw x y n s = .next t) (hdone : t.report = some .done) :
    t.flagIsBit := by
  rcases conclude_map_cases h with ⟨bs, -, rfl⟩ | ⟨e, -, rfl⟩
  · exact setFlag_flagIsBit _ _
  · cases hdone

/-- Where the exception of D4 does not apply, a shift leaves its flag: another destination than register 15, or FLAG_LAST. -/
theorem flag_kept_of_not_resultLast {x y : Nibble} (hi : i = .shrReg x y ∨ i = .shlReg x y)
    (hex : ¬ ∃ y, s.config.flagOrder = .resultLast ∧ (i = .shrReg 15#4 y ∨ i = .shlReg 15#4 y)) :
    x ≠ flagReg ∨ s.config.flagOrder = .flagLast := by
  by_cases hx : x = flagReg
  · subst hx
    cases hord : s.config.flagOrder with
    | flagLast => exact .inr rfl
    | resultLast => exact absurd ⟨y, hord, hi⟩ hex
  · exact .inl hx

/-- A register block reaches register 15 only if it is the whole register file. -/
theorem eq_flagReg_of_le {x : Nibble} (h : (15#4).toNat ≤ x.toNat) : x = 15#4 := by
  apply BitVec.eq_of_toNat_eq
  have := x.isLt
  have : (15#4).toNat = 15 := rfl
  omega

/-- An instruction that may write VF is one of the six or has register 15 as its destination. -/
theorem flag_destination_of_mayWrite (h : mayWrite i s (.reg 15#4)) :
    (∃ x y n, i = .addReg x y ∨ i = .subReg x y ∨ i = .subnReg x y ∨ i = .shrReg x y ∨ i = .shlReg x y ∨
      i = .drw x y n) ∨
    ∃ kk y, i = .ldImm 15#4 kk ∨ i = .addImm 15#4 kk ∨ i = .rnd 15#4 kk ∨ i = .ldReg 15#4 y ∨ i = .orReg 15#4 y ∨
      i = .andReg 15#4 y ∨ i = .xorReg 15#4 y ∨ i = .ldRegDt 15#4 ∨ i = .ldRegKey 15#4 ∨ i = .loadRegs 15#4 := by
  cases i with
  | addReg | subReg | subnReg | shrReg | shlReg | drw => left; simp
  | ldImm | addImm | ldReg | orReg | andReg | xorReg | ldRegDt => cases h; right; simp
  | rnd | ldRegKey => right; simpa [mayWrite, eq_comm] using h
  | loadRegs x =>
    obtain hmark | ⟨r, hr, hreg⟩ := h
    · cases hmark
    · cases hreg
      rw [eq_flagReg_of_le hr]
      right; simp
  | _ => simp [mayWrite] at h

/-- Settles O24: the six by their last write, every other instruction by its frame. -/
theorem onlySixInstructionsWriteTheFlag : Obligations.OnlySixInstructionsWriteTheFlag := by
  intro i s t h
  constructor
  · rintro ⟨x, y, n, rfl | rfl | rfl | rfl | rfl | rfl⟩ hex hdone
    iterate 3
      · cases h
        exact setFlag_flagIsBit _ _
    · cases h
      exact shiftWrites_flagIsBit (flag_kept_of_not_resultLast (.inl rfl) hex) _ _
    · cases h
      exact shiftWrites_flagIsBit (flag_kept_of_not_resultLast (.inr rfl) hex) _ _
    · exact execDrw_flagIsBit h hdone
  · intro hsix hdest
    refine (exec_frame h).regs 15#4 fun hw => ?_
    rcases flag_destination_of_mayWrite hw with hw | ⟨kk, y, hw⟩
    · exact hsix hw
    · have := hdest kk y
      tauto

end Sys2Proof.Machine
end

section
/-! PROOFS. 20_memory.md sections 1 and 6 (R50, R59): every step keeps the parameters and the canonical form of memory. -/

namespace Sys2Proof.Machine

variable {i : Instr} {s t : State}

/-! ### Memory after one operation -/

theorem pop_mem {r : Word × State} (h : s.pop = .ok r) : r.2.mem = s.mem := by
  rcases pop_cases s with ⟨-, he⟩ | ⟨-, h16, he⟩
  · cases h.symm.trans he
  · cases h.symm.trans he
    rfl

theorem push_mem {a : Word} (h : s.push a = .ok t) : t.mem = s.mem := by
  rcases push_cases s a with ⟨-, h16, he⟩ | ⟨-, he⟩
  · cases h.symm.trans he
    rfl
  · cases h.symm.trans he

theorem pollKey_mem (s : State) (x : Nibble) : (s.pollKey x).mem = s.mem := by
  rcases pollKey_cases s x with ⟨k, -, he⟩ | ⟨-, he⟩ <;> rw [he] <;> rfl

theorem shiftWrites_mem (s : State) (x : Nibble) (b : Byte) (g : Bool) : (s.shiftWrites x b g).mem = s.mem := by
  rw [shiftWrites_eq]

theorem setRegBlock_mem (s : State) (k : Nat) (bs : List Byte) : (s.setRegBlock k bs).mem = s.mem := by
  rw [setRegBlock_eq]

/-- An instruction leaves memory alone where its effect, computed from an answer, does. -/
theorem mem_of_conclude_map {α : Type} {r : Except TickError α} {g : α → State} (h : conclude s (r.map g) = .next t)
    (hok : ∀ a, r = .ok a → (g a).mem = s.mem) : t.mem = s.mem := by
  rcases conclude_map_cases h with ⟨a, hr, rfl⟩ | ⟨e, -, rfl⟩
  · exact hok a hr
  · rfl

/-- An instruction that stores a block leaves memory with the block written, or as it was. -/
theorem mem_of_conclude_memWrite {a : Nat} {bs : List Byte} (h : conclude s (memWrite s a bs) = .next t) :
    t.mem = s.mem ∨ t.mem = writeCells s.config.font s.mem a bs := by
  rcases memWrite_cases s a bs with ⟨-, he⟩ | ⟨-, he⟩ <;> rw [he] at h <;> cases h
  · exact .inr rfl
  · exact .inl rfl

/-! ### Memory after one instruction, one ITICK, one command -/

/-- The list of memory after an instruction: as it was, or with one block of bytes written from I upward. -/
theorem exec_mem_cases (h : exec i s = .next t) :
    t.mem = s.mem ∨ ∃ bs, t.mem = writeCells s.config.font s.mem s.base bs := by
  cases i with
  | ldBcd x => exact (mem_of_conclude_memWrite h).imp_right fun hmem => ⟨_, hmem⟩
  | storeRegs x => exact (mem_of_conclude_memWrite h).imp_right fun hmem => ⟨_, hmem⟩
  | ret => exact .inl (mem_of_conclude_map h fun r hr => (State.setPc_mem r.2 _).trans (pop_mem hr))
  | call nnn => exact .inl (mem_of_conclude_map h fun u hu => (State.setPc_mem u _).trans (push_mem hu))
  | skp | sknp => exact .inl (mem_of_conclude_map h fun held _ => State.skipIf_mem s _)
  | drw => exact .inl (mem_of_conclude_map h fun bs _ => rfl)
  | loadRegs => exact .inl (mem_of_conclude_map h fun bs _ => setRegBlock_mem s 0 bs)
  | shrReg | shlReg => cases h; exact .inl (shiftWrites_mem s _ _ _)
  | ldRegKey x => cases h; exact .inl (pollKey_mem s x)
  | seImm | sneImm | seReg | sneReg => cases h; exact .inl (State.skipIf_mem s _)
  | _ => cases h; exact .inl rfl

/-- The parameters of `s` are kept, and so is the canonical form of memory. -/
def KeepsMemory (s t : State) : Prop := t.config = s.config ∧ (s.memWf → t.memWf)

theorem KeepsMemory.writeBytes (s : State) (a : Nat) (bs : List Byte) : KeepsMemory s (s.writeBytes a bs) :=
  ⟨rfl, wf_writeCells a bs⟩

theorem exec_keepsMemory (h : exec i s = .next t) : KeepsMemory s t := by
  have hconfig := (exec_frame h).config
  refine ⟨hconfig, fun hwf => ?_⟩
  rw [State.memWf, hconfig]
  rcases exec_mem_cases h with hmem | ⟨bs, hmem⟩ <;> rw [hmem]
  · exact hwf
  · exact wf_writeCells s.base bs hwf

theorem iTick_keepsMemory (h : iTick s = .next t) : KeepsMemory s t := by
  rcases iTick_cases s with ⟨-, i, -, he⟩ | ⟨-, -, he⟩ | ⟨-, he⟩
  · exact exec_keepsMemory (s := s.advance) (he.symm.trans h)
  · cases he.symm.trans h
    exact ⟨rfl, id⟩
  · cases he.symm.trans h
    exact ⟨rfl, id⟩

theorem cmdPowerOn_memWf (s : State) : (cmdPowerOn s).memWf := by
  rw [State.memWf, cmdPowerOn_mem, cmdPowerOn_config]
  exact wf_zeroMemory

theorem perform_keepsMemory {c : Command} (h : perform c s = .next t) : KeepsMemory s t := by
  cases c with
  | itick => exact iTick_keepsMemory h
  | load image => rw [(cmdLoad_eq_next h).2]; exact .writeBytes s _ image
  | powerOn => cases h; exact ⟨rfl, fun _ => cmdPowerOn_memWf s⟩
  | reset => cases h; exact ⟨rfl, fun _ => wf_resetWith s.config⟩
  | ttick | keyPress | keyRelease => cases h; exact ⟨rfl, id⟩

/-- Settles O57: every command of the host keeps both, ITICK by what `exec_mem_cases` says of memory's list, and taking a
command off the schedule touches neither. -/
theorem everyStepKeepsMemoryCanonical : Obligations.EveryStepKeepsMemoryCanonical := by
  intro s t h
  cases hsched : s.schedule with
  | nil => exact iTick_keepsMemory ((step_nil hsched).symm.trans h)
  | cons c rest => exact perform_keepsMemory (s := { s with schedule := rest }) ((step_cons hsched).symm.trans h)

end Sys2Proof.Machine
end

section
/-! PROOFS. 20_memory.md sections 3, 4, 6 and 11 (R52 to R55, R59, R60, R64): the fetched word, an access wholly inside
memory, an access past its end, and a store seen by the next fetch. -/

namespace Sys2Proof.Machine

variable {s : State} {a : Nat} {bs : List Byte}

/-! ### The fetched word -/

theorem wordOfBytes_toNat (hi lo : Byte) : (wordOfBytes hi lo).toNat = hi.toNat * 256 + lo.toNat := by
  have h := BitVec.toNat_append hi lo
  rw [← Nat.shiftLeft_add_eq_or_of_lt lo.isLt, Nat.shiftLeft_eq] at h
  exact h

theorem fetch_eq_wordAtPc (h : s.canFetch) : s.fetch = .ok s.wordAtPc := by
  rcases fetch_cases s with ⟨-, hf⟩ | ⟨hpc, -⟩
  · exact hf
  · exact absurd h (Nat.not_le.mpr hpc)

/-- Settles O6: the fetched word is `wordAtPc`, whatever the parity of PC. -/
theorem fetchIsBigEndian : Obligations.FetchIsBigEndian := by
  intro s hpc
  exact ⟨s.wordAtPc, fetch_eq_wordAtPc hpc, wordOfBytes_toNat _ _⟩

/-! ### Accesses inside memory and past its end -/

theorem memWrite_inside (h : a + bs.length ≤ 0x1000) : memWrite s a bs = .ok (s.writeBytes a bs) := by
  rcases memWrite_cases s a bs with ⟨-, he⟩ | ⟨⟨-, hout⟩, -⟩
  · exact he
  · omega

theorem memWrite_outside (hne : bs.length ≠ 0) (h : 0x1000 < a + bs.length) :
    memWrite s a bs = .error (.address .data (max a 0x1000)) := by
  rcases memWrite_cases s a bs with ⟨hin, -⟩ | ⟨-, he⟩
  · omega
  · exact he

theorem memRead_outside {sp : Space} {n : Nat} (hne : n ≠ 0) (h : 0x1000 < a + n) :
    memRead s sp a n = .error (.address sp (max a 0x1000)) := by
  rcases memRead_cases s sp a n with ⟨hin, -⟩ | ⟨-, he⟩
  · omega
  · exact he

/-- A store past the end of memory raises and writes nothing. -/
theorem conclude_memWrite_outside (hne : bs.length ≠ 0) (h : 0x1000 < a + bs.length) :
    conclude s (memWrite s a bs) = .next (s.raise (.address .data (max a 0x1000))) := by
  rw [memWrite_outside hne h, conclude_error]

/-- An instruction that reads past the end of memory raises, whatever it would do with the bytes. -/
theorem conclude_map_memRead_outside {sp : Space} {n : Nat} (g : List Byte → State) (hne : n ≠ 0) (h : 0x1000 < a + n) :
    conclude s ((memRead s sp a n).map g) = .next (s.raise (.address sp (max a 0x1000))) := by
  rw [memRead_outside hne h, Except.map, conclude_error]

/-- Settles O38: the access check fails before any byte is read or written, so all four raise the same error in the state
they began in. -/
theorem blockAccessOutsideMemoryIsReported : Obligations.BlockAccessOutsideMemoryIsReported := by
  intro i s hi
  have hraise : exec i s = .next (s.raise (.address .data (max s.base 0x1000))) := by
    rcases hi with ⟨x, rfl, hout⟩ | ⟨x, rfl, hout⟩ | ⟨x, rfl, hout⟩ | ⟨x, y, n, rfl, hn, hout⟩
    · exact conclude_memWrite_outside (by simp) (by rw [decimalDigits_length, State.base]; omega)
    · exact conclude_memWrite_outside (by simp [blockCount]) (by rw [regBlock_length, State.base, blockCount]; omega)
    · exact conclude_map_memRead_outside _ (Nat.succ_ne_zero _) (by rw [State.base, blockCount]; omega)
    · have hrows : n.toNat ≠ 0 := fun hzero => hn (BitVec.eq_of_toNat_eq hzero)
      exact conclude_map_memRead_outside _ hrows (by rw [State.base]; omega)
  exact ⟨_, hraise, rfl, rfl, Frame.raise (W := fun p => p = .mark) (Frame.refl _ s) rfl _⟩

/-- Settles O39: past 0xFFF the access check fails, and inside memory the one byte is a block of its own. -/
theorem memWriteChangesOneCell : Obligations.MemWriteChangesOneCell := by
  intro s addr b hwf
  constructor
  · intro hout
    rw [memWrite_outside (by simp) (by rw [List.length_singleton]; omega), Nat.max_eq_left hout]
  · intro hin
    have hlt : addr < Config.memSize := Nat.lt_succ_of_le hin
    have hframe : Frame (fun p => p = .cell addr) s (s.writeBytes addr [b]) :=
      (Frame.refl _ s).writeBytes fun q ⟨hlow, hhigh⟩ => by
        rw [List.length_singleton] at hhigh
        rw [show q = addr by omega]
    exact ⟨_, memWrite_inside (Nat.succ_le_of_lt hlt), readCell_writeCell_self b hlt hwf, wf_writeCells addr [b] hwf, rfl,
      hframe⟩

/-! ### A stored register block -/

/-- Byte j of a register block is the register j above its first. -/
theorem regBlock_getElem (s : State) (k n : Nat) {j : Nat} (hj : j < (s.regBlock k n).length) :
    (s.regBlock k n)[j] = s.getV (BitVec.ofNat 4 (k + j)) := by
  induction n generalizing k j with
  | zero => cases hj
  | succ n ih =>
    cases j with
    | zero => rfl
    | succ j =>
      rw [show k + (j + 1) = k + 1 + j by omega]
      exact ih (k + 1) (Nat.lt_of_succ_lt_succ hj)

/-- LD [I],Vx wholly inside memory writes its register block and completes (43_index_memory.md R184). -/
theorem exec_storeRegs_inside {x : Nibble} (h : s.base + x.toNat ≤ 0xFFF) :
    exec (.storeRegs x) s = .next (s.writeBytes s.base (s.regBlock 0 (blockCount x))).complete := by
  have hok : memWrite s s.base (s.regBlock 0 (blockCount x)) = _ :=
    memWrite_inside (by rw [regBlock_length, blockCount]; omega)
  rw [exec, execStoreRegs, hok, conclude_ok]

/-- Register r of a stored block is read back at its address. -/
theorem readByte_writeBytes_regBlock {x r : Nibble} (hwf : s.memWf) (h : s.base + x.toNat ≤ 0xFFF)
    (hr : r.toNat ≤ x.toNat) :
    (s.writeBytes s.base (s.regBlock 0 (blockCount x))).readByte (s.base + r.toNat) = s.getV r := by
  have hend : s.base + (s.regBlock 0 (blockCount x)).length ≤ 4096 := by
    rw [regBlock_length, blockCount]; omega
  have hk : r.toNat < (s.regBlock 0 (blockCount x)).length := by
    rw [regBlock_length, blockCount]; omega
  rw [State.writeBytes_readByte, readCell_writeCells_inside hwf hend hk, regBlock_getElem, Nat.zero_add,
    BitVec.ofNat_toNat, BitVec.setWidth_eq]

/-- Settles O41: the two bytes the fetch reads are V[r] and V[r + 1] of the stored block. -/
theorem storesAreSeenByTheNextFetch : Obligations.StoresAreSeenByTheNextFetch := by
  intro x r s hwf hin hr
  refine ⟨_, exec_storeRegs_inside hin, ?_⟩
  have hnext : (r + 1#4).toNat = r.toNat + 1 := by
    have := x.isLt
    rw [BitVec.toNat_add, BitVec.toNat_ofNat]
    omega
  have hpc : (BitVec.ofNat 16 (s.i.toNat + r.toNat)).toNat = s.i.toNat + r.toNat := by
    rw [BitVec.toNat_ofNat]
    omega
  have hhi := readByte_writeBytes_regBlock hwf hin (Nat.le_of_lt hr)
  have hlo := readByte_writeBytes_regBlock (r := r + 1#4) hwf hin (by omega)
  rw [hnext] at hlo
  rw [fetch_eq_wordAtPc (by rw [State.canFetch, State.setPc_pc, hpc]; omega), State.wordAtPc, State.setPc_pc, hpc]
  simp only [State.setPc_readByte, State.complete_readByte]
  exact congrArg₂ (fun hi lo => Except.ok (wordOfBytes hi lo)) hhi hlo

end Sys2Proof.Machine
end

section
/-! PROOFS. 30_encoding.md (R82, R84, R85, R87): the decoder undoes the encoder and the encoder the decoder, the decoder agrees
with the opcode map, and which words are unknown. -/

namespace Sys2Proof

variable {w m p : Word} {i : Instr} {r : OpcodeRow}

/-! ### The decoder undoes the encoder -/

/-- The fields of an encoding are the ones it was built from, so the decoder's tests find the fixed ones and its answer has
the operands. -/
theorem decode_encode (i : Instr) : decode (encode i) = .instr i := by
  cases i with
  | cls | ret => rfl
  | jp | call | seImm | sneImm | ldImm | addImm | ldI | jpV0 | rnd | drw => simp [encode, decode]
  | seReg | sneReg => simp [encode, decode, decodeLowZero]
  | ldReg | orReg | andReg | xorReg | addReg | subReg | shrReg | subnReg | shlReg =>
    simp [encode, decode, decodeFamilyEight]
  | skp | sknp => simp [encode, decode, decodeFamilyE]
  | ldRegDt | ldRegKey | ldDtReg | ldStReg | addI | ldFont | ldBcd | storeRegs | loadRegs =>
    simp [encode, decode, decodeFamilyF]

/-- Settles O2: `decode_encode`. -/
theorem decodeOfEncodeIsTheInstruction : Obligations.DecodeOfEncodeIsTheInstruction := decode_encode

/-- Settles O1: thirteen closed words, evaluated. -/
theorem specWordsDecode : Obligations.SpecWordsDecode := by
  unfold Obligations.SpecWordsDecode
  decide

/-! ### The encoder undoes the decoder -/

/-- A word is built from its own fields, in each of the three layouts of 30_encoding.md R82. -/
theorem wordNnn_of_fields {op : Nibble} (hop : (opField w).toNat = op.toNat) : wordNnn op (nnnField w) = w := by
  apply BitVec.eq_of_toNat_eq
  rw [wordNnn_toNat, ← hop, opField_toNat, nnnField_toNat]
  omega

theorem wordXkk_of_fields {op : Nibble} {kk : Byte} (hop : (opField w).toNat = op.toNat)
    (hkk : (kkField w).toNat = kk.toNat) : wordXkk op (xField w) kk = w := by
  apply BitVec.eq_of_toNat_eq
  rw [wordXkk_toNat, ← hop, ← hkk, opField_toNat, xField_toNat, kkField_toNat]
  omega

theorem wordXyn_of_fields {op n : Nibble} (hop : (opField w).toNat = op.toNat) (hn : (nField w).toNat = n.toNat) :
    wordXyn op (xField w) (yField w) n = w := by
  apply BitVec.eq_of_toNat_eq
  rw [wordXyn_toNat, ← hop, ← hn, opField_toNat, xField_toNat, yField_toNat, nField_toNat]
  omega

theorem encode_of_decodeFamilyZero (h : decodeFamilyZero w = .instr i) : encode i = w := by
  unfold decodeFamilyZero at h
  split at h
  · cases h; exact Eq.symm ‹_›
  · split at h <;> cases h
    exact Eq.symm ‹_›

/-- Families 5 and 9, whichever their instruction: its encoding is the two-register layout with low nibble 0. -/
theorem encode_of_decodeLowZero {op : Nibble} {mk : Nibble → Nibble → Instr} (hop : (opField w).toNat = op.toNat)
    (hmk : ∀ x y, encode (mk x y) = wordXyn op x y 0#4) (h : decodeLowZero mk w = .instr i) : encode i = w := by
  unfold decodeLowZero at h
  split at h <;> cases h
  exact (hmk _ _).trans (wordXyn_of_fields hop (congrArg BitVec.toNat ‹_›))

theorem encode_of_decodeFamilyEight (hop : (opField w).toNat = 0x8) (h : decodeFamilyEight w = .instr i) :
    encode i = w := by
  unfold decodeFamilyEight at h
  split at h <;> cases h <;> exact wordXyn_of_fields hop ‹_›

theorem encode_of_decodeFamilyE (hop : (opField w).toNat = 0xE) (h : decodeFamilyE w = .instr i) : encode i = w := by
  unfold decodeFamilyE at h
  split at h <;> cases h <;> exact wordXkk_of_fields hop ‹_›

theorem encode_of_decodeFamilyF (hop : (opField w).toNat = 0xF) (h : decodeFamilyF w = .instr i) : encode i = w := by
  unfold decodeFamilyF at h
  split at h <;> cases h <;> exact wordXkk_of_fields hop ‹_›

/-- Family by family; a form with no fixed field below the high nibble is one of the three layouts as it stands.
(Case `h_k` of a split of `decode` is the high nibble k - 1; `h_17` is empty.) -/
theorem encode_of_decode (h : decode w = .instr i) : encode i = w := by
  unfold decode at h
  split at h
  case h_1 => exact encode_of_decodeFamilyZero h
  case h_6 hop => exact encode_of_decodeLowZero (op := 0x5#4) hop (fun _ _ => rfl) h
  case h_9 hop => exact encode_of_decodeFamilyEight hop h
  case h_10 hop => exact encode_of_decodeLowZero (op := 0x9#4) hop (fun _ _ => rfl) h
  case h_15 hop => exact encode_of_decodeFamilyE hop h
  case h_16 hop => exact encode_of_decodeFamilyF hop h
  case h_14 hop => cases h; exact wordXyn_of_fields hop rfl
  case h_4 hop | h_5 hop | h_7 hop | h_8 hop | h_13 hop => cases h; exact wordXkk_of_fields hop rfl
  case h_2 hop | h_3 hop | h_11 hop | h_12 hop => cases h; exact wordNnn_of_fields hop
  case h_17 => cases h

/-- Settles O3: `encode_of_decode`. -/
theorem encodeOfDecodeIsTheWord : Obligations.EncodeOfDecodeIsTheWord := fun _ _ => encode_of_decode

/-! ### The decoder and the opcode map -/

theorem row_mem_opcodeMap (i : Instr) : i.row ∈ opcodeMap := by
  cases i <;> simp [Instr.row, opcodeMap, rowsOneToNine, rowsFamilyEight, rowsNineToE, rowsFamilyF]

/-- Every row of the map is some instruction's: the one its match value decodes to. -/
theorem exists_row_eq (hr : r ∈ opcodeMap) : ∃ i : Instr, i.row = r := by
  have hrows : ∀ r ∈ opcodeMap, (decode r.pattern).instr?.map Instr.row = some r := by decide
  obtain ⟨i, -, hi⟩ := Option.map_eq_some_iff.mp (hrows r hr)
  exact ⟨i, hi⟩

open Laws.EncodingMatchesRow in
/-- The per-instruction laws as one statement, in the order of the rows of the map. -/
theorem row_admits_encode (i : Instr) : i.row.admits (encode i) := by
  cases i
  exacts [cls, ret, jp _, call _, seImm _ _, sneImm _ _, seReg _ _, ldImm _ _, addImm _ _, ldReg _ _, orReg _ _,
    andReg _ _, xorReg _ _, addReg _ _, subReg _ _, shrReg _ _, subnReg _ _, shlReg _ _, sneReg _ _, ldI _, jpV0 _,
    rnd _ _, drw _ _ _, skp _, sknp _, ldRegDt _, ldRegKey _, ldDtReg _, ldStReg _, addI _, ldFont _, ldBcd _,
    storeRegs _, loadRegs _]

/-- Where a mask keeps a whole field, an admitted word has the field of the match value. -/
theorem extractLsb'_of_masked {start len : Nat} (h : w &&& m = p) (hm : m.extractLsb' start len = .allOnes len) :
    w.extractLsb' start len = p.extractLsb' start len := by
  rw [← h, BitVec.extractLsb'_and, hm, BitVec.and_allOnes]

theorem opField_of_masked (h : w &&& m = p) (hm : opField m = 0xF#4) : opField w = opField p :=
  extractLsb'_of_masked h hm

theorem nField_of_masked (h : w &&& m = p) (hm : nField m = 0xF#4) : nField w = nField p :=
  extractLsb'_of_masked h hm

theorem kkField_of_masked (h : w &&& m = p) (hm : kkField m = 0xFF#8) : kkField w = kkField p :=
  extractLsb'_of_masked h hm

theorem decodeLowZero_of_zero {mk : Nibble → Nibble → Instr} (hn : nField w = 0x0#4) :
    decodeLowZero mk w = .instr (mk (xField w) (yField w)) := if_pos hn

/-- A word that an instruction's row admits has that row's fixed fields, which are all the decoder tests; it decodes to an
instruction of the same row. -/
theorem exists_decode_of_admits (h : i.row.admits w) : ∃ j, decode w = .instr j ∧ j.row = i.row := by
  cases i with
  | cls | ret =>
    obtain rfl : w = _ := BitVec.and_allOnes.symm.trans h
    exact ⟨_, rfl, rfl⟩
  | jp | call | seImm | sneImm | ldImm | addImm | ldI | jpV0 | rnd | drw =>
    dsimp only [Instr.row] at h
    rw [decode, opField_of_masked h rfl]
    exact ⟨_, rfl, rfl⟩
  | seReg | sneReg =>
    dsimp only [Instr.row] at h
    rw [decode, opField_of_masked h rfl]
    exact ⟨_, decodeLowZero_of_zero (nField_of_masked h rfl), rfl⟩
  | ldReg | orReg | andReg | xorReg | addReg | subReg | shrReg | subnReg | shlReg =>
    dsimp only [Instr.row] at h
    rw [decode, decodeFamilyEight, opField_of_masked h rfl, nField_of_masked h rfl]
    exact ⟨_, rfl, rfl⟩
  | skp | sknp =>
    dsimp only [Instr.row] at h
    rw [decode, decodeFamilyE, opField_of_masked h rfl, kkField_of_masked h rfl]
    exact ⟨_, rfl, rfl⟩
  | ldRegDt | ldRegKey | ldDtReg | ldStReg | addI | ldFont | ldBcd | storeRegs | loadRegs =>
    dsimp only [Instr.row] at h
    rw [decode, decodeFamilyF, opField_of_masked h rfl, kkField_of_masked h rfl]
    exact ⟨_, rfl, rfl⟩

/-- Settles O4: a decoded word is the encoding of its instruction, which the instruction's row admits; conversely by
`exists_decode_of_admits`. -/
theorem decoderFollowsTheOpcodeMap : Obligations.DecoderFollowsTheOpcodeMap := by
  constructor
  · intro w i h
    refine ⟨row_mem_opcodeMap i, ?_⟩
    rw [← encode_of_decode h]
    exact row_admits_encode i
  · intro w r hr h
    obtain ⟨i, rfl⟩ := exists_row_eq hr
    exact exists_decode_of_admits h

/-! ### The unknown words of each family (30_encoding.md R87) -/

theorem decodeFamilyZero_eq_unknown_iff (hop : (opField w).toNat = 0x0) :
    decodeFamilyZero w = .unknown w ↔ nnnField w ≠ 0x0E0#12 ∧ nnnField w ≠ 0x0EE#12 := by
  have hword (a : Addr) : nnnField w = a ↔ w = wordNnn 0x0#4 a :=
    ⟨fun h => h ▸ (wordNnn_of_fields hop).symm, fun h => h ▸ nnnField_wordNnn _ a⟩
  rw [ne_eq, ne_eq, hword, hword]
  change _ ↔ ¬ w = 0x00E0#16 ∧ ¬ w = 0x00EE#16
  unfold decodeFamilyZero
  split_ifs <;> simp [*]

theorem decodeLowZero_eq_unknown_iff {mk : Nibble → Nibble → Instr} :
    decodeLowZero mk w = .unknown w ↔ nField w ≠ 0x0#4 := by
  simp [decodeLowZero]

theorem decodeFamilyEight_eq_unknown_iff :
    decodeFamilyEight w = .unknown w ↔ nField w ∈ [0x8#4, 0x9#4, 0xA#4, 0xB#4, 0xC#4, 0xD#4, 0xF#4] := by
  have hlt := (nField w).isLt
  unfold decodeFamilyEight
  split
  case h_10 =>
    simp only [List.mem_cons, List.not_mem_nil, BitVec.toNat_eq, true_iff]
    grind
  all_goals simp [BitVec.toNat_eq, *]

theorem decodeFamilyE_eq_unknown_iff :
    decodeFamilyE w = .unknown w ↔ kkField w ≠ 0x9E#8 ∧ kkField w ≠ 0xA1#8 := by
  unfold decodeFamilyE
  split <;> simp_all [BitVec.toNat_eq]

theorem decodeFamilyF_eq_unknown_iff :
    decodeFamilyF w = .unknown w ↔
      kkField w ∉ [0x07#8, 0x0A#8, 0x15#8, 0x18#8, 0x1E#8, 0x29#8, 0x33#8, 0x55#8, 0x65#8] := by
  unfold decodeFamilyF
  split <;> simp_all [BitVec.toNat_eq]

/-- Settles O5: the high nibble picks one disjunct, which is its family's lemma above, or none, where the form has no other
fixed field. -/
theorem unknownWordsByFamily : Obligations.UnknownWordsByFamily := by
  intro w
  have hlt := (opField w).isLt
  unfold decode
  split
  case h_1 hop => simp [decodeFamilyZero_eq_unknown_iff hop, BitVec.toNat_eq, hop]
  case h_6 hop | h_10 hop => simp [decodeLowZero_eq_unknown_iff, BitVec.toNat_eq, hop]
  case h_9 hop => simp [decodeFamilyEight_eq_unknown_iff, BitVec.toNat_eq, hop]
  case h_15 hop => simp [decodeFamilyE_eq_unknown_iff, BitVec.toNat_eq, hop]
  case h_16 hop => simp [decodeFamilyF_eq_unknown_iff, BitVec.toNat_eq, hop]
  case h_2 hop | h_3 hop | h_4 hop | h_5 hop | h_7 hop | h_8 hop | h_11 hop | h_12 hop | h_13 hop | h_14 hop =>
    simp [BitVec.toNat_eq, hop]
  case h_17 => grind

end Sys2Proof
end

section
/-! PROOFS. 40_tick_cycle.md (R110 to R119): what an ITICK runs, that it always returns a result, what it can change, and
that a failed fetch repeats. -/

namespace Sys2Proof.Machine

variable {W W' : Part → Prop} {p : Part} {i : Instr} {s t : State}

/-! ### The three outcomes of an ITICK, by their conditions -/

theorem iTick_of_instr (hpc : s.canFetch) (hd : decode s.wordAtPc = .instr i) : iTick s = exec i s.advance := by
  simp only [iTick, fetch_eq_wordAtPc hpc, hd, runDecoded]

/-- A word that no row of the map admits is reported, for what decodes has a row that admits it. -/
theorem iTick_of_unadmitted (hpc : s.canFetch) (hrow : ∀ r ∈ opcodeMap, ¬ r.admits s.wordAtPc) :
    iTick s = .next (s.advance.reportUnknown s.wordAtPc) := by
  rcases iTick_cases s with ⟨-, i, hd, -⟩ | ⟨-, -, he⟩ | ⟨hout, -⟩
  · obtain ⟨hmem, hadm⟩ := decoderFollowsTheOpcodeMap.1 _ i hd
    exact absurd hadm (hrow _ hmem)
  · exact he
  · exact absurd hpc (Nat.not_le.mpr hout)

/-- The state a failed fetch leaves (60_exceptions.md R252, R257). -/
def State.raiseFetch (s : State) : State := s.raise (.address .fetch (max s.pc.toNat 0x1000))

theorem iTick_eq_raiseFetch (hpc : 0x0FFE < s.pc.toNat) : iTick s = .next s.raiseFetch := by
  rcases iTick_cases s with ⟨hin, -⟩ | ⟨hin, -⟩ | ⟨-, he⟩
  · exact absurd hin (Nat.not_le.mpr hpc)
  · exact absurd hin (Nat.not_le.mpr hpc)
  · exact he

/-! ### Frames of the advance -/

theorem Frame.mono (h : Frame W s t) (hW : ∀ p, W p → W' p) : Frame W' s t where
  regs r hn := h.regs r (mt (hW _) hn)
  index hn := h.index (mt (hW _) hn)
  pc hn := h.pc (mt (hW _) hn)
  slots k hn := h.slots k (mt (hW _) hn)
  sp hn := h.sp (mt (hW _) hn)
  delay hn := h.delay (mt (hW _) hn)
  sound hn := h.sound (mt (hW _) hn)
  cells a hn := h.cells a (mt (hW _) hn)
  pixels row col hn := h.pixels row col (mt (hW _) hn)
  keys k hn := h.keys k (mt (hW _) hn)
  wait hn := h.wait (mt (hW _) hn)
  draws hn := h.draws (mt (hW _) hn)
  mark hn := h.mark (mt (hW _) hn)
  schedule := h.schedule
  config := h.config

/-- What begins on the advanced state has, counted from the state before, the frame with PC and WAIT added. -/
theorem Frame.of_advance (h : Frame W s.advance t) (hpc : W .pc) (hwait : W .wait) : Frame W s t :=
  { h with
    pc := fun hn => absurd hpc hn
    wait := fun hn => absurd hwait hn }

theorem Frame.reportUnknown (h : Frame W s t) (w : Word) : Frame W s (t.reportUnknown w) := { h with }

theorem advance_frame (s : State) : Frame (fun p => p ∈ [.pc, .wait]) s s.advance :=
  (Frame.refl _ s.advance).of_advance (by simp) (by simp)

/-! ### The instruction an ITICK runs -/

/-- Settles O7: the two forms of the step are the ITICK by `step_nil` and `step_cons`, and neither the fetch nor the
decoding reads the schedule. -/
theorem stepRunsTheDecodedInstruction : Obligations.StepRunsTheDecodedInstruction := by
  intro s i hpc hd
  refine ⟨iTick_of_instr hpc hd, fun hnil => ?_, fun rest hcons => ?_, rfl, rfl, rfl, advance_frame s⟩
  · exact (step_nil hnil).trans (iTick_of_instr hpc hd)
  · exact (step_cons hcons).trans (iTick_of_instr (s := { s with schedule := rest }) hpc hd)

/-- Settles O9: the ITICK is the advance with the report, by `iTick_of_unadmitted`. -/
theorem unknownWordIsAReportedNoOp : Obligations.UnknownWordIsAReportedNoOp := by
  intro s hpc hrow
  exact ⟨_, iTick_of_unadmitted hpc hrow, rfl, rfl, rfl, (advance_frame s).reportUnknown _⟩

/-! ### An ITICK always returns a result -/

theorem conclude_reports (s : State) (r : Except TickError State) :
    ∃ t res, conclude s r = .next t ∧ t.report = some res := by
  cases r with
  | ok t => exact ⟨_, _, conclude_ok s t, rfl⟩
  | error e => exact ⟨_, _, conclude_error s e, rfl⟩

/-- Every instruction ends in `conclude`: the eight that check an access, the stack or a key code on an answer that can be
an error, all others on their effect. -/
theorem exec_reports (i : Instr) (s : State) : ∃ t res, exec i s = .next t ∧ t.report = some res := by
  cases i with
  | ret | call | drw | skp | sknp | ldBcd | storeRegs | loadRegs => exact conclude_reports s _
  | _ => exact ⟨_, _, rfl, rfl⟩

/-- Settles O11: an instruction reports by `exec_reports`, and the other two outcomes are next states with a report. -/
theorem everyTickReturnsAResult : Obligations.EveryTickReturnsAResult := by
  intro s
  rcases iTick_cases s with ⟨-, i, -, he⟩ | ⟨-, -, he⟩ | ⟨-, he⟩ <;> rw [he]
  · exact exec_reports i s.advance
  · exact ⟨_, _, rfl, rfl⟩
  · exact ⟨_, _, rfl, rfl⟩

/-! ### The frame of an ITICK -/

/-- An instruction was decoded and its rule lists the part. -/
def State.ruleWrites (s : State) (p : Part) : Prop :=
  ∃ i, s.canFetch ∧ decode s.wordAtPc = .instr i ∧ mayWrite i s.advance p

theorem iTick_frame_of_instr (h : iTick s = .next t) (hpc : s.canFetch) (hd : decode s.wordAtPc = .instr i) :
    Frame (fun p => p = .pc ∨ p = .wait ∨ mayWrite i s.advance p) s t := by
  have hexec : exec i s.advance = .next t := (iTick_of_instr hpc hd).symm.trans h
  exact ((exec_frame hexec).mono fun _ hw => .inr (.inr hw)).of_advance (.inl rfl) (.inr (.inl rfl))

theorem iTick_frame_of_no_instr (h : iTick s = .next t)
    (hno : ¬ ∃ i, s.pc.toNat ≤ 0x0FFE ∧ decode s.wordAtPc = .instr i) : Frame (fun p => p ∈ [.pc, .wait, .mark]) s t := by
  rcases iTick_cases s with ⟨hpc, i, hd, -⟩ | ⟨-, -, he⟩ | ⟨-, he⟩
  · exact absurd ⟨i, hpc, hd⟩ hno
  · cases he.symm.trans h
    exact ((Frame.refl _ s.advance).of_advance (by simp) (by simp)).reportUnknown _
  · cases he.symm.trans h
    exact (Frame.refl _ s).raise (by simp) _

/-- Both cases as one frame: what the rule lists, PC, WAIT and the mark. -/
theorem iTick_frame (h : iTick s = .next t) : Frame (fun p => p ∈ [.pc, .wait, .mark] ∨ s.ruleWrites p) s t := by
  by_cases hi : ∃ i, s.pc.toNat ≤ 0x0FFE ∧ decode s.wordAtPc = .instr i
  · obtain ⟨i, hpc, hd⟩ := hi
    refine (iTick_frame_of_instr h hpc hd).mono ?_
    rintro p (rfl | rfl | hw)
    · exact .inl (by simp)
    · exact .inl (by simp)
    · exact .inr ⟨i, hpc, hd, hw⟩
  · exact (iTick_frame_of_no_instr h hi).mono fun _ hw => .inl hw

/-- A part that the tick's frame would keep (`hkeep` is its clause) and that changed is listed by the decoded rule, unless
it is PC, WAIT or the mark. -/
theorem ruleWrites_of_changed {unchanged : Prop} (hkeep : ¬ (p ∈ [.pc, .wait, .mark] ∨ s.ruleWrites p) → unchanged)
    (hne : ¬ unchanged) (hp : p ∉ [.pc, .wait, .mark]) : s.ruleWrites p :=
  (not_imp_comm.mp hkeep hne).resolve_left hp

/-! ### Which instructions list a part -/

theorem not_mayWrite_key (i : Instr) (s : State) (k : Fin 16) : ¬ mayWrite i s (.key k) := by
  cases i <;> simp [mayWrite]

theorem eq_ldDtReg_of_mayWrite (h : mayWrite i s .delay) : ∃ x, i = .ldDtReg x := by
  cases i with
  | ldDtReg x => exact ⟨x, rfl⟩
  | _ => simp [mayWrite] at h

theorem eq_ldStReg_of_mayWrite (h : mayWrite i s .sound) : ∃ x, i = .ldStReg x := by
  cases i with
  | ldStReg x => exact ⟨x, rfl⟩
  | _ => simp [mayWrite] at h

theorem eq_cls_or_drw_of_mayWrite {row : Fin 32} {col : Fin 64} (h : mayWrite i s (.pixel row col)) :
    i = .cls ∨ ∃ x y n, i = .drw x y n := by
  cases i with
  | cls => exact .inl rfl
  | drw x y n => exact .inr ⟨x, y, n, rfl⟩
  | _ => simp [mayWrite] at h

theorem eq_ldBcd_or_storeRegs_of_mayWrite {a : Nat} (h : mayWrite i s (.cell a)) :
    ∃ x, i = .ldBcd x ∨ i = .storeRegs x := by
  cases i with
  | ldBcd x => exact ⟨x, .inl rfl⟩
  | storeRegs x => exact ⟨x, .inr rfl⟩
  | _ => simp [mayWrite] at h

theorem eq_ret_or_call_of_mayWrite (hp : p = .sp ∨ ∃ k, p = .slot k) (h : mayWrite i s p) :
    i = .ret ∨ ∃ nnn, i = .call nnn := by
  cases i with
  | ret => exact .inl rfl
  | call nnn => exact .inr ⟨nnn, rfl⟩
  | _ => rcases hp with rfl | ⟨k, rfl⟩ <;> simp [mayWrite] at h

/-- Settles O14: the two frames, and for each part of the later clauses: a change means that the decoded instruction's rule
lists the part, which picks the instruction. -/
theorem tickChangesOnlyWhatTheRuleLists : Obligations.TickChangesOnlyWhatTheRuleLists := by
  intro s t h
  have hF := iTick_frame h
  refine ⟨fun i hpc hd => iTick_frame_of_instr h hpc hd, iTick_frame_of_no_instr h, fun k => hF.keys k ?key,
    fun hne => ?delay, fun hne => ?sound, ?pixel, ?cell, ?stack⟩
  case key =>
    intro hw
    obtain ⟨i, -, -, hw⟩ := hw.resolve_left (by simp)
    exact not_mayWrite_key i _ k hw
  case delay =>
    obtain ⟨i, hpc, hd, hw⟩ := ruleWrites_of_changed hF.delay hne (by simp)
    obtain ⟨x, rfl⟩ := eq_ldDtReg_of_mayWrite hw
    exact ⟨x, hpc, hd⟩
  case sound =>
    obtain ⟨i, hpc, hd, hw⟩ := ruleWrites_of_changed hF.sound hne (by simp)
    obtain ⟨x, rfl⟩ := eq_ldStReg_of_mayWrite hw
    exact ⟨x, hpc, hd⟩
  case pixel =>
    rintro ⟨row, col, hne⟩
    obtain ⟨i, hpc, hd, hw⟩ := ruleWrites_of_changed (hF.pixels row col) hne (by simp)
    obtain rfl | ⟨x, y, n, rfl⟩ := eq_cls_or_drw_of_mayWrite hw
    · exact ⟨hpc, .inl hd⟩
    · exact ⟨hpc, .inr ⟨x, y, n, hd⟩⟩
  case cell =>
    rintro ⟨a, hne⟩
    obtain ⟨i, hpc, hd, hw⟩ := ruleWrites_of_changed (hF.cells a) hne (by simp)
    obtain ⟨x, rfl | rfl⟩ := eq_ldBcd_or_storeRegs_of_mayWrite hw
    · exact ⟨hpc, x, .inl hd⟩
    · exact ⟨hpc, x, .inr hd⟩
  case stack =>
    intro hne
    obtain ⟨p, hp, i, hpc, hd, hw⟩ : ∃ p, (p = .sp ∨ ∃ k, p = .slot k) ∧ s.ruleWrites p := by
      rcases hne with hne | ⟨k, hne⟩
      · exact ⟨.sp, .inl rfl, ruleWrites_of_changed hF.sp hne (by simp)⟩
      · exact ⟨.slot k, .inr ⟨k, rfl⟩, ruleWrites_of_changed (hF.slots k) hne (by simp)⟩
    obtain rfl | ⟨nnn, rfl⟩ := eq_ret_or_call_of_mayWrite hp hw
    · exact ⟨hpc, .inl hd⟩
    · exact ⟨hpc, .inr ⟨nnn, hd⟩⟩

/-! ### A failed fetch repeats -/

theorem run_succ_of_next {M : Host.Core} {s t : M.State} (h : M.step s = .next t) (k : Nat) :
    M.run (k + 1) s = M.run k t := by
  rw [Host.Core.run, h]

/-- With no command pending, k steps are k ITICKs, since every ITICK answers a state and leaves the schedule empty. -/
theorem run_eq_performAll_itick (k : Nat) (hs : s.schedule = []) :
    Host.Core.run Sys2Proof.core k s = performAll (List.replicate k .itick) s := by
  induction k generalizing s with
  | zero => rfl
  | succ k ih =>
    obtain ⟨t, -, ht, -⟩ := everyTickReturnsAResult s
    have hstep : step s = .next t := (step_nil hs).trans ht
    rw [List.replicate_succ, performAll, perform_itick, ht]
    exact (run_succ_of_next (M := Sys2Proof.core) hstep k).trans (ih ((iTick_frame ht).schedule.trans hs))

/-- PC stays where it was, so the next ITICK fails alike, and raising the same error again changes nothing. -/
theorem performAll_itick_eq_raiseFetch (n : Nat) (hpc : 0x0FFE < s.pc.toNat) :
    performAll (List.replicate (n + 1) .itick) s = .next s.raiseFetch := by
  rw [List.replicate_succ, performAll, perform_itick, iTick_eq_raiseFetch hpc]
  induction n with
  | zero => rfl
  | succ n ih =>
    have hagain : iTick s.raiseFetch = .next s.raiseFetch := iTick_eq_raiseFetch (s := s.raiseFetch) hpc
    simp only [List.replicate_succ, performAll, perform_itick, hagain]
    exact ih

/-- Settles O10: the ITICKs by `performAll_itick_eq_raiseFetch`, the steps by `run_eq_performAll_itick`. -/
theorem fetchErrorRepeats : Obligations.FetchErrorRepeats := by
  intro n s hpc
  have hticks := performAll_itick_eq_raiseFetch n hpc
  exact ⟨s.raiseFetch, hticks, fun hs => (run_eq_performAll_itick (n + 1) hs).trans hticks, rfl, rfl,
    Frame.raise (W := fun p => p = .mark) (Frame.refl _ s) rfl _⟩

end Sys2Proof.Machine
end

section
/-! PROOFS. 41_flow.md (R130 to R139): the jumps, the compare skips, CALL and RET on one stack slot, and calls nested up to
STACK_DEPTH_LIMIT and beyond. -/

namespace Sys2Proof.Machine

variable {i : Instr} {is : List Instr} {s t : State}

/-! ### Words written as sums of their fields -/

/-- A word given as a number decodes to the instruction whose encoding has that number. -/
theorem decode_ofNat_of_encode_toNat {n : Nat} (h : (encode i).toNat = n) : decode (BitVec.ofNat 16 n) = .instr i := by
  rw [← h, BitVec.ofNat_toNat, BitVec.setWidth_eq, decode_encode]

theorem decode_ofNat_of_wordXkk {op x : Nibble} {kk : Byte} {n : Nat} (hi : encode i = wordXkk op x kk)
    (hn : n = op.toNat * 4096 + 256 * x.toNat + kk.toNat) : decode (BitVec.ofNat 16 n) = .instr i := by
  apply decode_ofNat_of_encode_toNat
  rw [hi, wordXkk_toNat, hn, Nat.mul_comm x.toNat]

theorem decode_ofNat_of_wordXyn {op x y : Nibble} {n : Nat} (hi : encode i = wordXyn op x y 0#4)
    (hn : n = op.toNat * 4096 + 256 * x.toNat + 16 * y.toNat) : decode (BitVec.ofNat 16 n) = .instr i := by
  apply decode_ofNat_of_encode_toNat
  rw [hi, wordXyn_toNat, hn, Nat.mul_comm x.toNat, Nat.mul_comm y.toNat, BitVec.toNat_ofNat, Nat.zero_mod, Nat.add_zero]

/-! ### Jumps -/

/-- A jump writes PC alone. -/
theorem setPc_complete_frame (s : State) (a : Word) : Frame (fun p => p = .pc) s (s.setPc a).complete :=
  ((Frame.refl (fun p => p = .pc) s).setPc rfl a).complete

/-- At 0xFFF the first byte is in memory and the second, at 0x1000, is the lowest address outside (60_exceptions.md R252). -/
theorem fetch_at_last_byte (hpc : s.pc.toNat = 0xFFF) : s.fetch = .error (.address .fetch 0x1000) := by
  rcases fetch_cases s with ⟨hin, -⟩ | ⟨-, hf⟩
  · omega
  · rw [hf, hpc]
    rfl

/-- Settles O25: the word is the encoding of JP, the target is zero-extended, and the failing fetch is
`fetch_at_last_byte`. -/
theorem jumpSetsThePc : Obligations.JumpSetsThePc := by
  intro nnn
  refine ⟨decode_ofNat_of_encode_toNat (wordNnn_toNat 0x1#4 nnn), fun s => ?_⟩
  refine ⟨(s.setPc (zextAddr nnn)).complete, rfl, rfl, zextAddr_toNat nnn, ?fetch, setPc_complete_frame s _⟩
  case fetch =>
    rintro rfl
    exact fetch_at_last_byte (zextAddr_toNat 0xFFF#12)

/-- The target of JP V0, at most 0xFFF + 0xFF, does not wrap at sixteen bits. -/
theorem zextAddr_add_zextByte_toNat (nnn : Addr) (b : Byte) :
    (zextAddr nnn + zextByte b).toNat = nnn.toNat + b.toNat := by
  have := nnn.isLt
  have := b.isLt
  rw [BitVec.toNat_add, zextAddr_toNat, zextByte_toNat]
  omega

/-- Settles O26: the sixteen-bit sum is the sum of the integers by `zextAddr_add_zextByte_toNat`. -/
theorem indexedJumpAddsVZero : Obligations.IndexedJumpAddsVZero := by
  intro nnn s
  exact ⟨(s.setPc (zextAddr nnn + zextByte (s.getV 0#4))).complete, rfl, rfl,
    zextAddr_add_zextByte_toNat nnn (s.getV 0#4), setPc_complete_frame s _⟩

/-! ### Compare skips -/

/-- A skip completes, moves PC on exactly when its test holds, and writes nothing else. -/
theorem conclude_skipIf (s : State) (c : Bool) {pc : Word} (hpc : (if c then s.pc + 2#16 else s.pc) = pc) :
    ∃ t, conclude s (.ok (s.skipIf c)) = .next t ∧ t.report = some .done ∧ t.pc = pc ∧ Frame (fun p => p = .pc) s t :=
  have hframe := ((Frame.refl (fun p => p = .pc) s).skipIf rfl c).complete
  ⟨(s.skipIf c).complete, rfl, rfl, (State.skipIf_pc s c).trans hpc, hframe⟩

/-- Settles O27: each skip is `conclude_skipIf` with its own test, and the unknown words are those of families 5 and 9 in
`unknownWordsByFamily`. -/
theorem compareSkips : Obligations.CompareSkips := by
  refine ⟨fun x kk => ?imm, fun x y => ?reg, fun w hop hn => ?unknown⟩
  case imm =>
    refine ⟨decode_ofNat_of_wordXkk (op := 0x3#4) rfl rfl, decode_ofNat_of_wordXkk (op := 0x4#4) rfl rfl,
      fun s => ⟨?_, ?_⟩⟩
    · exact conclude_skipIf s (s.getV x == kk) (by simp)
    · exact conclude_skipIf s (s.getV x != kk) (by simp)
  case reg =>
    refine ⟨decode_ofNat_of_wordXyn (op := 0x5#4) rfl rfl, decode_ofNat_of_wordXyn (op := 0x9#4) rfl rfl,
      fun s => ⟨?_, ?_⟩⟩
    · exact conclude_skipIf s (s.getV x == s.getV y) (by simp)
    · exact conclude_skipIf s (s.getV x != s.getV y) (by simp)
  case unknown =>
    rw [unknownWordsByFamily w]
    rcases hop with hop | hop
    · exact .inr (.inl ⟨hop, hn⟩)
    · exact .inr (.inr (.inr (.inl ⟨hop, hn⟩)))

/-! ### One call, one return -/

theorem exec_call_of_push (nnn : Addr) (h : s.push s.pc = .ok t) :
    exec (.call nnn) s = .next (t.setPc (zextAddr nnn)).complete := by
  rw [exec, execCall, h, Except.map, conclude_ok]

/-- CALL with STACK_DEPTH_LIMIT entries raises, and does not jump (41_flow.md R132, 60_exceptions.md R253). -/
theorem exec_call_full (nnn : Addr) (h : s.callSlots ≤ s.sp.val) :
    exec (.call nnn) s = .next (s.raise (.stack .overflow)) := by
  rcases push_cases s s.pc with ⟨hfree, -⟩ | ⟨-, hpush⟩
  · exact absurd hfree (Nat.not_lt.mpr h)
  · rw [exec, execCall, hpush, Except.map, conclude_error]

theorem exec_ret_of_pop {r : Word × State} (h : s.pop = .ok r) : exec .ret s = .next (r.2.setPc r.1).complete := by
  rw [exec, execRet, h, Except.map, conclude_ok]

/-- Settles O28: below the limit the push succeeds by `push_cases`, and the jump is the second effect. -/
theorem callPushesTheReturnAddress : Obligations.CallPushesTheReturnAddress := by
  intro nnn s k hk hfree
  rcases push_cases s s.pc with ⟨-, h16, hpush⟩ | ⟨hfull, -⟩
  · have hslot : (s.stack.set s.sp.val s.pc h16)[k] = s.pc := by
      rw [Fin.getElem_fin, Vector.getElem_set, if_pos hk.symm]
    have hframe := Frame.push (W := fun p => p ∈ [.pc, .sp, .slot k]) hpush (by simp) fun j hj => by
      simp [Fin.ext (hj.trans hk.symm)]
    exact ⟨_, exec_call_of_push nnn hpush, rfl, hslot, rfl, zextAddr_toNat nnn, (hframe.setPc (by simp) _).complete⟩
  · exact absurd hfree (Nat.not_lt.mpr hfull)

/-- Settles O29: with SP above 0 the pop answers the slot below SP by `pop_cases`, and RET puts it in PC unmasked. -/
theorem returnPopsTheReturnAddress : Obligations.ReturnPopsTheReturnAddress := by
  intro s hlive
  rcases pop_cases s with ⟨hzero, -⟩ | ⟨-, h16, hpop⟩
  · exact absurd hzero (Nat.ne_of_gt hlive)
  · have hframe := Frame.pop (W := fun p => p ∈ [.pc, .sp]) hpop (by simp)
    exact ⟨_, exec_ret_of_pop hpop, rfl, rfl, rfl, (hframe.setPc (by simp) _).complete⟩

/-! ### Instructions one after the other -/

theorem execAll_cons_of_next (h : exec i s = .next t) (is : List Instr) : execAll (i :: is) s = execAll is t := by
  rw [execAll, h]

theorem execAll_singleton (i : Instr) (s : State) : execAll [i] s = exec i s := by
  cases h : exec i s <;> simp only [execAll, h]

theorem execAll_append_of_next (h : execAll is s = .next t) (js : List Instr) :
    execAll (is ++ js) s = execAll js t := by
  induction is generalizing s with
  | nil =>
    cases h
    rfl
  | cons i is ih =>
    cases hexec : exec i s with
    | next u =>
      rw [execAll_cons_of_next hexec] at h
      rw [List.cons_append, execAll_cons_of_next hexec, ih h]
    | fault f => simp only [execAll, hexec, reduceCtorEq] at h
    | refused r => simp only [execAll, hexec, reduceCtorEq] at h

/-! ### Nested calls and returns -/

/-- `t` is back where `s` was, as far as a caller can tell: PC, SP, the mark, the registers and the live slots (the slots
above hold what the calls left there). -/
structure BackToCaller (s t : State) : Prop where
  pc    : t.pc = s.pc
  sp    : t.sp = s.sp
  mark  : t.errorMark = s.errorMark
  regs  : ∀ r, t.getV r = s.getV r
  slots : ∀ k : Fin 16, k.val < s.sp.val → t.stack[k] = s.stack[k]

/-- A call with a free slot, as the nesting proofs use it: the slot is the one SP counts to. -/
theorem exists_exec_call (nnn : Addr) (hfree : s.sp.val < s.callSlots) :
    ∃ (k : Fin 16) (u : State), k.val = s.sp.val ∧ exec (.call nnn) s = .next u ∧ u.stack[k] = s.pc ∧
      u.sp.val = s.sp.val + 1 ∧ u.callSlots = s.callSlots ∧ Frame (fun p => p ∈ [.pc, .sp, .slot k]) s u := by
  have h16 : s.sp.val < 16 := Nat.lt_of_lt_of_le hfree s.config.stackDepthLimit.slots_le
  obtain ⟨u, hcall, -, hslot, hsp, -, hframe⟩ := callPushesTheReturnAddress nnn s ⟨s.sp.val, h16⟩ rfl hfree
  exact ⟨_, u, rfl, hcall, hslot, hsp, congrArg (·.stackDepthLimit.slots) hframe.config, hframe⟩

/-- A call and its return around anything that comes back to its caller come back to the caller: the slot of this call is
live inside, so the return finds in it the PC the call pushed. -/
theorem backToCaller_of_call_ret (nnn : Addr) (hfree : s.sp.val < s.callSlots)
    (hbody : ∀ u : State, u.sp.val = s.sp.val + 1 → u.callSlots = s.callSlots →
      ∃ v, execAll is u = .next v ∧ BackToCaller u v) :
    ∃ t, execAll (.call nnn :: (is ++ [.ret])) s = .next t ∧ BackToCaller s t := by
  obtain ⟨slot, u, hslotsp, hcall, huslot, husp, hucall, hsu⟩ := exists_exec_call nnn hfree
  obtain ⟨v, hv, huv⟩ := hbody u husp hucall
  have hvsp : v.sp.val = s.sp.val + 1 := (congrArg Fin.val huv.sp).trans husp
  obtain ⟨t, hret, -, htpc, htsp, hvt⟩ := returnPopsTheReturnAddress v (by omega)
  refine ⟨t, ?run, ?pc, Fin.ext (by omega), ?mark, fun r => ?regs, fun k hk => ?slots⟩
  case run => rw [execAll_cons_of_next hcall, execAll_append_of_next hv, execAll_singleton, hret]
  case pc =>
    have hkept : v.stack[slot] = u.stack[slot] := huv.slots slot (by omega)
    have hpopped : v.stack[v.sp.val - 1] = v.stack[slot] := by
      simp only [Fin.getElem_fin, hslotsp, hvsp, Nat.add_sub_cancel]
    rw [htpc, hpopped, hkept, huslot]
  case mark => rw [hvt.mark (by simp), huv.mark, hsu.mark (by simp)]
  case regs => rw [hvt.regs r (by simp), huv.regs, hsu.regs r (by simp)]
  case slots =>
    have hne : k ≠ slot := Fin.ne_of_val_ne (by omega)
    rw [hvt.slots k (by simp), huv.slots k (by omega), hsu.slots k (by simpa using hne)]

/-- Calls that fit and as many returns come back to the caller: the first call pairs with the last return. -/
theorem calls_rets_backToCaller (targets : List Addr) (hfit : s.sp.val + targets.length ≤ s.callSlots) :
    ∃ t, execAll (targets.map .call ++ List.replicate targets.length .ret) s = .next t ∧ BackToCaller s t := by
  induction targets generalizing s with
  | nil => exact ⟨s, rfl, rfl, rfl, rfl, fun _ => rfl, fun _ _ => rfl⟩
  | cons nnn targets ih =>
    rw [List.length_cons] at hfit
    rw [List.map_cons, List.length_cons, List.replicate_succ', List.cons_append, ← List.append_assoc]
    refine backToCaller_of_call_ret nnn (by omega) fun u husp hslots => ih ?_
    omega

/-- Settles O31: `calls_rets_backToCaller`. -/
theorem callsAndReturnsNest : Obligations.CallsAndReturnsNest := by
  intro targets s hfit
  obtain ⟨t, hrun, ⟨hpc, hsp, hmark, hregs, hslots⟩⟩ := calls_rets_backToCaller targets hfit
  exact ⟨t, hrun, hpc, hsp, hmark, hregs, hslots⟩

/-- Calls that fit raise SP by their number and record no error. -/
theorem execAll_calls_fit (targets : List Addr) (hfit : s.sp.val + targets.length ≤ s.callSlots) :
    ∃ t, execAll (targets.map .call) s = .next t ∧ t.errorMark = s.errorMark ∧
      t.sp.val = s.sp.val + targets.length ∧ t.callSlots = s.callSlots := by
  induction targets generalizing s with
  | nil => exact ⟨s, rfl, rfl, rfl, rfl⟩
  | cons nnn targets ih =>
    rw [List.length_cons] at hfit
    have hfree : s.sp.val < s.callSlots := by omega
    obtain ⟨_, u, -, hcall, -, husp, hslots, hsu⟩ := exists_exec_call nnn hfree
    obtain ⟨t, hrun, hmark, hsp, htslots⟩ := ih (s := u) (by omega)
    refine ⟨t, (execAll_cons_of_next hcall _).trans hrun, hmark.trans (hsu.mark (by simp)), ?_, htslots.trans hslots⟩
    rw [hsp, husp, List.length_cons]
    omega

/-- On a full stack every call raises the same error, and raising it again changes nothing. -/
theorem execAll_calls_full {targets : List Addr} (hne : targets ≠ []) (hfull : s.callSlots ≤ s.sp.val) :
    execAll (targets.map .call) s = .next (s.raise (.stack .overflow)) := by
  induction targets generalizing s with
  | nil => exact absurd rfl hne
  | cons nnn targets ih =>
    rw [List.map_cons, execAll_cons_of_next (exec_call_full nnn hfull)]
    cases targets with
    | nil => rfl
    | cons nnn' targets => exact ih (s := s.raise (.stack .overflow)) (List.cons_ne_nil _ _) hfull

/-- Settles O32: a list that is too long is its first `callSlots` calls, which fill the stack by `execAll_calls_fit`, and
the others, which raise by `execAll_calls_full`. -/
theorem sixteenCallsFitAndNotSeventeen : Obligations.SixteenCallsFitAndNotSeventeen := by
  intro targets s hsp hmark
  constructor
  · intro hfit
    obtain ⟨t, hrun, htmark, htsp, -⟩ := execAll_calls_fit (s := s) targets (by omega)
    exact ⟨t, hrun, htmark.trans hmark, by rw [htsp, hsp, Nat.zero_add]⟩
  · intro hlong
    have hlen : (targets.take s.callSlots).length = s.callSlots := List.length_take_of_le (Nat.le_of_lt hlong)
    obtain ⟨t, hrun, -, htsp, hslots⟩ := execAll_calls_fit (s := s) (targets.take s.callSlots) (by omega)
    have hfull : t.sp.val = s.callSlots := by omega
    have hrest : targets.drop s.callSlots ≠ [] := by rwa [ne_eq, List.drop_eq_nil_iff, Nat.not_le]
    have hover := execAll_calls_full (s := t) hrest (by rw [hslots, hfull])
    refine ⟨t.raise (.stack .overflow), ?_, rfl, rfl, hfull⟩
    calc execAll (targets.map .call) s
        = execAll ((targets.take s.callSlots).map .call ++ (targets.drop s.callSlots).map .call) s := by
          rw [← List.map_append, List.take_append_drop]
      _ = execAll ((targets.drop s.callSlots).map .call) t := execAll_append_of_next hrun _
      _ = .next (t.raise (.stack .overflow)) := hover

end Sys2Proof.Machine
end

section
/-! PROOFS. 42_alu.md (R150 to R163): the register loads, the logic, the arithmetic with its flag, RND, and what the shifts
take from the parameters. -/

namespace Sys2Proof.Machine

variable {i : Instr} {s t : State} {x y : Nibble}

/-! ### An instruction that writes one register -/

theorem setV_complete_getV (s : State) (x : Nibble) (b : Byte) : (s.setV x b).complete.getV x = b := by
  rw [State.complete_getV, State.getV_setV, if_pos rfl]

theorem setV_complete_frame (s : State) (x : Nibble) (b : Byte) :
    Frame (fun p => p = .reg x) s (s.setV x b).complete :=
  ((Frame.refl (fun p => p = .reg x) s).setV rfl b).complete

/-- Settles O16: the word is the encoding of LD Vx,kk, and the byte written is read back. -/
theorem loadImmediate : Obligations.LoadImmediate := by
  intro x kk
  refine ⟨decode_ofNat_of_wordXkk (op := 0x6#4) rfl rfl, fun s => ?_⟩
  exact ⟨(s.setV x kk).complete, rfl, rfl, setV_complete_getV s x kk, setV_complete_frame s x kk⟩

/-- Settles O17: the sum of two bytes is taken modulo 256, and the frame leaves VF alone unless x is 15. -/
theorem addImmediateWrapsWithoutFlag : Obligations.AddImmediateWrapsWithoutFlag := by
  intro x kk
  refine ⟨decode_ofNat_of_wordXkk (op := 0x7#4) rfl rfl, fun s => ?_⟩
  refine ⟨(s.setV x (s.getV x + kk)).complete, rfl, rfl, ?_, setV_complete_frame s x _⟩
  rw [setV_complete_getV, BitVec.toNat_add]

/-- A word of family 8 given as a number, whatever its low nibble (30_encoding.md R85 rows 10 to 18). -/
theorem decode_ofNat_of_familyEight {n : Nibble} {k : Nat} (hi : encode i = wordXyn 0x8#4 x y n)
    (hk : k = 0x8000 + n.toNat + 256 * x.toNat + 16 * y.toNat) : decode (BitVec.ofNat 16 k) = .instr i := by
  apply decode_ofNat_of_encode_toNat
  rw [hi, wordXyn_toNat, hk, BitVec.toNat_ofNat]
  omega

/-- Settles O18: the four words differ in the low nibble, and each result is the operation of the two old bytes, which
works bit by bit. -/
theorem moveAndLogic : Obligations.MoveAndLogic := by
  intro x y
  refine ⟨⟨?_, ?_, ?_, ?_⟩, fun s => ⟨?move, ?or, ?and, ?xor⟩⟩
  · exact decode_ofNat_of_familyEight (n := 0x0#4) rfl rfl
  · exact decode_ofNat_of_familyEight (n := 0x1#4) rfl rfl
  · exact decode_ofNat_of_familyEight (n := 0x2#4) rfl rfl
  · exact decode_ofNat_of_familyEight (n := 0x3#4) rfl rfl
  case move => exact ⟨_, rfl, rfl, setV_complete_getV s x (s.getV y), setV_complete_frame s x _⟩
  case or =>
    refine ⟨(s.setV x (s.getV x ||| s.getV y)).complete, rfl, rfl, fun b _ => ?_, setV_complete_frame s x _⟩
    rw [setV_complete_getV, BitVec.getLsbD_or]
  case and =>
    refine ⟨(s.setV x (s.getV x &&& s.getV y)).complete, rfl, rfl, fun b _ => ?_, setV_complete_frame s x _⟩
    rw [setV_complete_getV, BitVec.getLsbD_and]
  case xor =>
    refine ⟨(s.setV x (s.getV x ^^^ s.getV y)).complete, rfl, rfl, fun b _ => ?_, setV_complete_frame s x _⟩
    rw [setV_complete_getV, BitVec.getLsbD_xor]

/-- Settles O23: RND is `rndWith` on the next byte of the stream, in the state that has counted it. -/
theorem randomIsMasked : Obligations.RandomIsMasked := by
  intro x kk s
  constructor
  · have hframe : Frame (fun p => p ∈ [.reg x, .draws]) s
        (s.countDraw.setV x (Config.randomByte s.draws &&& kk)).complete :=
      (((Frame.refl _ s).countDraw (by simp)).setV (by simp) _).complete
    exact ⟨_, rfl, rfl, setV_complete_getV s.countDraw x _, rfl, hframe⟩
  · intro r
    refine ⟨(s.setV x (r &&& kk)).complete, rfl, fun b _ => ?_, setV_complete_frame s x _⟩
    rw [setV_complete_getV, BitVec.getLsbD_and]

/-! ### An instruction that writes a result, then the flag -/

theorem flagByte_decide_toNat (p : Prop) [Decidable p] : (flagByte (decide p)).toNat = if p then 1 else 0 := by
  by_cases h : p <;> simp [flagByte, h]

theorem byte_sub_toNat (a b : Byte) : (a - b).toNat = (a.toNat + 256 - b.toNat) % 256 := by
  have := b.isLt
  rw [BitVec.toNat_sub]
  omega

theorem resultThenFlag_getV_flag (s : State) (x : Nibble) (b : Byte) (g : Bool) :
    (s.resultThenFlag x b g).getV flagReg = flagByte g := by
  rw [State.resultThenFlag, State.getV_setFlag, if_pos rfl]

theorem resultThenFlag_getV_result (hx : x ≠ flagReg) (s : State) (b : Byte) (g : Bool) :
    (s.resultThenFlag x b g).getV x = b := by
  rw [State.resultThenFlag, State.getV_setFlag, if_neg hx, State.getV_setV, if_pos rfl]

/-- The flag is written last, so it stands in VF whichever x is, and the result in V[x] unless that is VF (42_alu.md R162,
decision D4). -/
theorem conclude_resultThenFlag (s : State) (x : Nibble) {b : Byte} {g : Bool} {result flag : Nat}
    (hresult : b.toNat = result) (hflag : (flagByte g).toNat = flag) :
    ∃ t, conclude s (.ok (s.resultThenFlag x b g)) = .next t ∧ t.report = some .done ∧
      (x ≠ 15#4 → (t.getV x).toNat = result) ∧ (t.getV 15#4).toNat = flag ∧
      Frame (fun p => p ∈ [.reg x, .reg 15#4]) s t := by
  refine ⟨(s.resultThenFlag x b g).complete, rfl, rfl, fun hx => ?_, ?_, ?_⟩
  · rw [State.complete_getV, resultThenFlag_getV_result hx, hresult]
  · rw [State.complete_getV, resultThenFlag_getV_flag, hflag]
  · exact ((Frame.refl _ s).resultThenFlag (by simp) (by simp) b g).complete

/-- Settles O19: `conclude_resultThenFlag` with the sum and the carry of the old values. -/
theorem addSetsTheCarry : Obligations.AddSetsTheCarry := by
  intro x y s
  exact conclude_resultThenFlag s x (BitVec.toNat_add _ _) (flagByte_decide_toNat _)

/-- Settles O20: `conclude_resultThenFlag` with the difference and the not-borrow, the operands exchanged for SUBN. -/
theorem subtractSetsTheNotBorrow : Obligations.SubtractSetsTheNotBorrow := by
  intro x y s
  constructor
  · exact conclude_resultThenFlag s x (byte_sub_toNat _ _) (flagByte_decide_toNat _)
  · exact conclude_resultThenFlag s x (byte_sub_toNat _ _) (flagByte_decide_toNat _)

/-! ### The shifts under two parameter records -/

theorem setV_comm (hne : x ≠ y) (s : State) (b c : Byte) : (s.setV x b).setV y c = (s.setV y c).setV x b := by
  have hidx : x.toNat ≠ y.toNat := fun h => hne (BitVec.eq_of_toNat_eq h)
  simp only [State.setV, Vector.set_comm _ _ hidx]

/-- Into another register than VF the two writes of a shift commute, so FLAG_ORDER does not matter (42_alu.md R162). -/
theorem shiftWrites_eq_resultThenFlag (hx : x ≠ flagReg) (s : State) (b : Byte) (g : Bool) :
    s.shiftWrites x b g = s.resultThenFlag x b g := by
  unfold State.shiftWrites
  cases s.config.flagOrder with
  | flagLast => rfl
  | resultLast => exact (setV_comm hx s b (flagByte g)).symm

section Config

variable {q : Params}

/-- With x = y the source is V[x] under both values of SHIFT_SRC (42_alu.md R158). -/
theorem shiftSource_withConfig (h : s.config.shiftSrc = q.shiftSrc ∨ x = y) :
    shiftSource { s with config := q } x y = shiftSource s x y := by
  unfold shiftSource
  rcases h with hsrc | rfl
  · rw [hsrc]
    rfl
  · cases s.config.shiftSrc <;> cases q.shiftSrc <;> rfl

theorem shiftWrites_withConfig (h : s.config.flagOrder = q.flagOrder ∨ x ≠ 15#4) (b : Byte) (g : Bool) :
    ({ s with config := q } : State).shiftWrites x b g = { s.shiftWrites x b g with config := q } := by
  rcases h with hord | hx
  · unfold State.shiftWrites
    rw [hord]
    cases q.flagOrder <;> rfl
  · rw [shiftWrites_eq_resultThenFlag hx, shiftWrites_eq_resultThenFlag hx]
    rfl

/-- A shift, whatever it makes of its source (`f`) and of the bit out (`g`), sees the parameters only through the source
and the order of the writes. -/
theorem conclude_shift_withConfig (f : Byte → Byte) (g : Byte → Bool)
    (hsrc : s.config.shiftSrc = q.shiftSrc ∨ x = y) (hord : s.config.flagOrder = q.flagOrder ∨ x ≠ 15#4)
    (h : conclude s (.ok (s.shiftWrites x (f (shiftSource s x y)) (g (shiftSource s x y)))) = .next t) :
    conclude { s with config := q } (.ok (({ s with config := q } : State).shiftWrites x
      (f (shiftSource { s with config := q } x y)) (g (shiftSource { s with config := q } x y)))) =
      .next { t with config := q } := by
  cases h
  rw [shiftSource_withConfig hsrc, shiftWrites_withConfig hord, conclude_ok]
  rfl

end Config

/-- Settles O22: `conclude_shift_withConfig` for the right and the left shift. -/
theorem shiftParametersMatterOnlyWhereSaid : Obligations.ShiftParametersMatterOnlyWhereSaid := by
  rintro q x y s t i hsrc hord (rfl | rfl) h
  · exact conclude_shift_withConfig (· >>> 1) bitOutRight hsrc hord h
  · exact conclude_shift_withConfig (· <<< 1) bitOutLeft hsrc hord h

end Sys2Proof.Machine
end

section
/-! PROOFS. 43_index_memory.md (R180 to R186): I and its arithmetic, the stores through I and the load of a register block,
each with its access wholly inside memory. -/

namespace Sys2Proof.Machine

variable {s : State} {a : Nat} {bs : List Byte}

/-! ### The index register -/

theorem setI_complete_frame (s : State) (a : Word) : Frame (fun p => p = .index) s (s.setI a).complete :=
  ((Frame.refl (fun p => p = .index) s).setI rfl a).complete

/-- The highest font address, 5 * 15, does not wrap at sixteen bits. -/
theorem fontAddr_toNat (b : Byte) : (fontAddr b).toNat = 5 * (b.toNat % 16) := by
  rw [fontAddr, BitVec.toNat_ofNat]
  omega

/-- Settles O33: the word is the encoding of LD I,nnn, and the address is zero-extended. -/
theorem loadIndex : Obligations.LoadIndex := by
  intro nnn
  refine ⟨decode_ofNat_of_encode_toNat (wordNnn_toNat 0xA#4 nnn), fun s => ?_⟩
  exact ⟨(s.setI (zextAddr nnn)).complete, rfl, rfl, zextAddr_toNat nnn, setI_complete_frame s _⟩

/-- Settles O34: ADD I is the sixteen-bit sum, which wraps, and the font address does not by `fontAddr_toNat`. -/
theorem indexArithmetic : Obligations.IndexArithmetic := by
  intro x s
  constructor
  · refine ⟨(s.setI (s.i + zextByte (s.getV x))).complete, rfl, rfl, ?_, setI_complete_frame s _⟩
    rw [State.complete_i, State.setI_i, BitVec.toNat_add, zextByte_toNat]
  · exact ⟨(s.setI (fontAddr (s.getV x))).complete, rfl, rfl, fontAddr_toNat (s.getV x), setI_complete_frame s _⟩

/-! ### The stores -/

/-- A completed store writes the cells of its block alone, so I is unchanged (43_index_memory.md R186). -/
theorem writeBytes_complete_frame (s : State) (a : Nat) {n : Nat} (hlen : bs.length = n) :
    Frame (fun p => ∃ q, inRange a n q ∧ p = .cell q) s (s.writeBytes a bs).complete :=
  ((Frame.refl _ s).writeBytes fun q hq => ⟨q, hlen ▸ hq, rfl⟩).complete

/-- LD B,Vx wholly inside memory writes its three digits and completes. -/
theorem exec_ldBcd_inside {x : Nibble} (h : s.base + 2 ≤ 0xFFF) :
    exec (.ldBcd x) s = .next (s.writeBytes s.base (decimalDigits (s.getV x))).complete := by
  have hok : memWrite s s.base (decimalDigits (s.getV x)) = _ :=
    memWrite_inside (by rw [decimalDigits_length]; omega)
  rw [exec, execLdBcd, hok, conclude_ok]

/-- A stored decimal digit is read back at its address as the number it is, since it fits a byte. -/
theorem readByte_writeBytes_decimalDigits {b : Byte} {k d : Nat} (hwf : s.memWf) (h : s.base + 2 ≤ 0xFFF)
    (hd : (decimalDigits b)[k]? = some (BitVec.ofNat 8 d)) (hfits : d < 256) :
    ((s.writeBytes s.base (decimalDigits b)).readByte (s.base + k)).toNat = d := by
  have hend : s.base + (decimalDigits b).length ≤ 4096 := by
    rw [decimalDigits_length]
    omega
  obtain ⟨hk, hdk⟩ := List.getElem?_eq_some_iff.mp hd
  rw [State.writeBytes_readByte, readCell_writeCells_inside hwf hend hk, hdk, BitVec.toNat_ofNat, Nat.mod_eq_of_lt hfits]

/-- Settles O35: the three digits are written by `exec_ldBcd_inside` and each is read back by
`readByte_writeBytes_decimalDigits`. -/
theorem decimalDigitsAreStored : Obligations.DecimalDigitsAreStored := by
  intro x s hwf hin
  have hbyte : (s.getV x).toNat < 256 := (s.getV x).isLt
  have hdigit {k d : Nat} := readByte_writeBytes_decimalDigits (b := s.getV x) (k := k) (d := d) hwf hin
  refine ⟨_, exec_ldBcd_inside hin, rfl, ?hundreds, ?tens, ?ones, writeBytes_complete_frame s s.base rfl⟩
  case hundreds => exact hdigit (k := 0) rfl (by omega)
  case tens => exact hdigit (k := 1) rfl (by omega)
  case ones => exact hdigit (k := 2) rfl (by omega)

/-- Settles O36: the block is written by `exec_storeRegs_inside` and read back by `readByte_writeBytes_regBlock`. -/
theorem registersAreStored : Obligations.RegistersAreStored := by
  intro x s hwf hin
  exact ⟨_, exec_storeRegs_inside hin, rfl, fun r hr => readByte_writeBytes_regBlock hwf hin hr,
    writeBytes_complete_frame s s.base (regBlock_length s 0 (x.toNat + 1))⟩

/-! ### The load of a register block -/

theorem memRead_inside {sp : Space} {n : Nat} (h : a + n ≤ 0x1000) : memRead s sp a n = .ok (s.readBytes a n) := by
  rcases memRead_cases s sp a n with ⟨-, he⟩ | ⟨⟨-, hout⟩, -⟩
  · exact he
  · omega

/-- Byte j of a block read from memory is the byte j above its first. -/
theorem readBytes_getElem (s : State) (a n : Nat) {j : Nat} (hj : j < (s.readBytes a n).length) :
    (s.readBytes a n)[j] = s.readByte (a + j) := by
  induction n generalizing a j with
  | zero => cases hj
  | succ n ih =>
    cases j with
    | zero => rfl
    | succ j =>
      rw [show a + (j + 1) = a + 1 + j by omega]
      exact ih (a + 1) (Nat.lt_of_succ_lt_succ hj)

/-- A register block load that ends at V[15] or below leaves the registers below the block. -/
theorem setRegBlock_getV_below (s : State) {k : Nat} {r : Nibble} (hr : r.toNat < k) (hend : k + bs.length ≤ 16) :
    (s.setRegBlock k bs).getV r = s.getV r := by
  induction bs generalizing s k with
  | nil => rfl
  | cons b bs ih =>
    rw [List.length_cons] at hend
    have hne : r ≠ BitVec.ofNat 4 k := by
      rintro rfl
      rw [BitVec.toNat_ofNat] at hr
      omega
    rw [State.setRegBlock, ih _ (by omega) (by omega), State.getV_setV, if_neg hne]

/-- Register j of such a block holds byte j: the later writes of the block fall above it. -/
theorem setRegBlock_getV_inside (s : State) {k j : Nat} (hend : k + bs.length ≤ 16) (hj : j < bs.length) :
    (s.setRegBlock k bs).getV (BitVec.ofNat 4 (k + j)) = bs[j] := by
  induction bs generalizing s k j with
  | nil => cases hj
  | cons b bs ih =>
    rw [List.length_cons] at hend hj
    rw [State.setRegBlock]
    cases j with
    | zero =>
      have hk : (BitVec.ofNat 4 (k + 0)).toNat < k + 1 := by
        rw [BitVec.toNat_ofNat]
        omega
      rw [setRegBlock_getV_below _ hk (by omega)]
      exact (State.getV_setV s _ _ b).trans (if_pos rfl)
    | succ j =>
      rw [show k + (j + 1) = k + 1 + j by omega]
      exact ih _ (by omega) (by omega)

/-- Settles O37: register r of the block takes byte r of the bytes read, and the block ends at V[x]. -/
theorem registersAreLoaded : Obligations.RegistersAreLoaded := by
  intro x s hin
  have hlen : (s.readBytes s.base (blockCount x)).length = x.toNat + 1 := readBytes_length _ _ _
  have hexec : exec (.loadRegs x) s = .next (s.setRegBlock 0 (s.readBytes s.base (blockCount x))).complete := by
    rw [exec, execLoadRegs, memRead_inside (by rw [State.base, blockCount]; omega), Except.map, conclude_ok]
  refine ⟨_, hexec, rfl, fun r hr => ?loaded, ((Frame.refl _ s).setRegBlock fun j hj => ?frame).complete⟩
  case loaded =>
    have hget := setRegBlock_getV_inside s (k := 0) (bs := s.readBytes s.base (blockCount x)) (j := r.toNat)
      (by have := x.isLt; omega) (by omega)
    rwa [Nat.zero_add, BitVec.ofNat_toNat, BitVec.setWidth_eq, readBytes_getElem] at hget
  case frame =>
    refine ⟨BitVec.ofNat 4 j, ?_, rfl⟩
    rw [BitVec.toNat_ofNat]
    omega

end Sys2Proof.Machine
end

section
/-! PROOFS. 44_display.md sections 2 and 3 (R201 to R209): CLS, and the sprite composer as a set of toggled pixels. -/

namespace Sys2Proof.Machine

variable {s : State} {a b c : Screen × Bool} {L M : Fin 32 → Fin 64 → Prop}

/-- Settles O42: the word is the encoding of CLS, and the cleared screen has every pixel 0. -/
theorem clearScreenClearsEveryPixel : Obligations.ClearScreenClearsEveryPixel := by
  refine ⟨decode_encode .cls, fun s => ⟨(s.setFb clearScreen).complete, rfl, rfl, pixelAt_clearScreen, ?_⟩⟩
  exact ((Frame.refl _ s).setFb fun row col hn => absurd ⟨row, col, rfl⟩ hn).complete

/-! ### Toggling a set of pixels -/

/-- `b` is `a` with exactly the pixels of `L` toggled (R203), and its collision bit is that of `a` or says that one of them
was lit (R204). -/
structure Toggles (L : Fin 32 → Fin 64 → Prop) (a b : Screen × Bool) : Prop where
  pixels    : ∀ row col, pixelAt b.1 row col ≠ pixelAt a.1 row col ↔ L row col
  collision : b.2 = true ↔ a.2 = true ∨ ∃ row col, L row col ∧ pixelAt a.1 row col = true

theorem Toggles.congr (h : Toggles L a b) (hLM : ∀ row col, L row col ↔ M row col) : Toggles M a b := by
  rwa [← show L = M from funext₂ fun row col => propext (hLM row col)]

theorem Toggles.refl (hL : ∀ row col, ¬ L row col) (a : Screen × Bool) : Toggles L a a where
  pixels row col := ⟨fun hne => absurd rfl hne, fun h => absurd h (hL row col)⟩
  collision := ⟨.inl, fun h => h.resolve_right fun ⟨row, col, hlit, _⟩ => hL row col hlit⟩

theorem Toggles.pixel_eq (h : Toggles L a b) {row : Fin 32} {col : Fin 64} (hn : ¬ L row col) :
    pixelAt b.1 row col = pixelAt a.1 row col := not_not.mp (mt (h.pixels row col).mp hn)

/-- Toggling two sets without a common pixel toggles their union: the second finds its pixels as they were at first. -/
theorem Toggles.trans (h : Toggles L a b) (h' : Toggles M b c) (hdisj : ∀ row col, L row col → ¬ M row col) :
    Toggles (fun row col => L row col ∨ M row col) a c where
  pixels row col := by
    by_cases hL : L row col
    · rw [h'.pixel_eq (hdisj row col hL), h.pixels, or_iff_left (hdisj row col hL)]
    · rw [← h.pixel_eq hL, h'.pixels, or_iff_right hL]
  collision := by
    have hfound : ∀ row col, M row col ∧ pixelAt b.1 row col = true ↔ M row col ∧ pixelAt a.1 row col = true :=
      fun row col => and_congr_right fun hM => by rw [h.pixel_eq fun hL => hdisj row col hL hM]
    simp only [h'.collision, h.collision, hfound, or_assoc, or_and_right, exists_or]

/-! ### The sprite composer -/

theorem pixelAt_setPixel_self (f : Screen) (row : Fin 32) (col : Fin 64) (v : Bool) :
    pixelAt (setPixel f row col v) row col = v := by
  rw [pixelAt, setPixel, Vector.getElem_set_self]
  cases v <;> simp

/-- Columns closer than the screen is wide are not wrapped onto each other (R205). -/
theorem wrapCol_ne {cx i i' : Nat} (h : i < i') (hclose : i' < i + 64) : wrapCol cx i ≠ wrapCol cx i' := by
  intro heq
  have : (cx + i) % 64 = (cx + i') % 64 := congrArg Fin.val heq
  omega

/-- Likewise for rows closer than the screen is high (R205). -/
theorem wrapRow_ne {cy j j' : Nat} (h : j < j') (hclose : j' < j + 32) : wrapRow cy j ≠ wrapRow cy j' := by
  intro heq
  have : (cy + j) % 32 = (cy + j') % 32 := congrArg Fin.val heq
  omega

theorem drawPixel_toggles (row : Fin 32) (col : Fin 64) (bit : Bool) (a : Screen × Bool) :
    Toggles (fun row' col' => (row' = row ∧ col' = col) ∧ bit = true) a (drawPixel row col bit a) where
  pixels row' col' := by
    by_cases hpos : row' = row ∧ col' = col
    · obtain ⟨rfl, rfl⟩ := hpos
      rw [drawPixel, pixelAt_setPixel_self]
      cases bit <;> simp
    · rw [drawPixel, pixelAt_setPixel_ne _ _ _ _ hpos]
      simp [hpos]
  collision := by simp [drawPixel]

/-- One of the sprite columns i to i + k - 1 of the byte, drawn in `row`, brings a 1 to the pixel. -/
def byteLit (p : Params) (cx : Nat) (row : Fin 32) (byte : Byte) (i k : Nat) (row' : Fin 32) (col' : Fin 64) : Prop :=
  ∃ i', i ≤ i' ∧ i' < i + k ∧ (row' = row ∧ col' = wrapCol cx i') ∧ spriteBit p byte i' = true

theorem byteLit_succ {p : Params} {cx : Nat} {row : Fin 32} {byte : Byte} {i k : Nat} (row' : Fin 32) (col' : Fin 64) :
    ((row' = row ∧ col' = wrapCol cx i) ∧ spriteBit p byte i = true) ∨ byteLit p cx row byte (i + 1) k row' col' ↔
      byteLit p cx row byte i (k + 1) row' col' := by
  constructor
  · rintro (hfirst | ⟨i', hlow, hhigh, hlit⟩)
    · exact ⟨i, by omega, by omega, hfirst⟩
    · exact ⟨i', by omega, by omega, hlit⟩
  · rintro ⟨i', hlow, hhigh, hlit⟩
    obtain rfl | hlt := Nat.eq_or_lt_of_le hlow
    · exact .inl hlit
    · exact .inr ⟨i', hlt, by omega, hlit⟩

theorem drawColumns_toggles (p : Params) (cx : Nat) (row : Fin 32) (byte : Byte) {i k : Nat} (hk : k ≤ 64)
    (a : Screen × Bool) : Toggles (byteLit p cx row byte i k) a (drawColumns p cx row byte i k a) := by
  induction k generalizing i a with
  | zero => exact .refl (fun row' col' ⟨i', hlow, hhigh, _⟩ => by omega) a
  | succ k ih =>
    refine ((drawPixel_toggles row (wrapCol cx i) _ a).trans (ih (by omega) _) ?_).congr byteLit_succ
    rintro row' col' ⟨⟨-, hcol⟩, -⟩ ⟨i', hlow, hhigh, ⟨-, hcol'⟩, -⟩
    exact wrapCol_ne hlow (by omega) (hcol.symm.trans hcol')

/-- One of the sprite's rows, the first of which is row j, brings a 1 to the pixel. -/
def rowsLit (p : Params) (cx cy j : Nat) (bytes : List Byte) (row' : Fin 32) (col' : Fin 64) : Prop :=
  ∃ j' byte, bytes[j']? = some byte ∧ byteLit p cx (wrapRow cy (j + j')) byte 0 8 row' col'

theorem rowsLit_cons {p : Params} {cx cy j : Nat} {byte : Byte} {bytes : List Byte} (row' : Fin 32) (col' : Fin 64) :
    byteLit p cx (wrapRow cy j) byte 0 8 row' col' ∨ rowsLit p cx cy (j + 1) bytes row' col' ↔
      rowsLit p cx cy j (byte :: bytes) row' col' := by
  constructor
  · rintro (hlit | ⟨j', byte', hget, hlit⟩)
    · exact ⟨0, byte, rfl, hlit⟩
    · exact ⟨j' + 1, byte', hget, by rwa [show j + (j' + 1) = j + 1 + j' by omega]⟩
  · rintro ⟨_ | j', byte', hget, hlit⟩
    · cases hget
      exact .inl hlit
    · exact .inr ⟨j', byte', hget, by rwa [show j + 1 + j' = j + (j' + 1) by omega]⟩

theorem drawRows_toggles (p : Params) (cx cy : Nat) {j : Nat} {bytes : List Byte} (hlen : bytes.length ≤ 32)
    (a : Screen × Bool) : Toggles (rowsLit p cx cy j bytes) a (drawRows p cx cy j bytes a) := by
  induction bytes generalizing j a with
  | nil => exact .refl (fun row' col' ⟨j', byte, hget, _⟩ => by cases hget) a
  | cons byte bytes ih =>
    rw [List.length_cons] at hlen
    refine ((drawColumns_toggles p cx (wrapRow cy j) byte (by omega) a).trans (ih (by omega) _) ?_).congr rowsLit_cons
    rintro row' col' ⟨-, -, -, ⟨hrow, -⟩, -⟩ ⟨j', byte', hget, -, -, -, ⟨hrow', -⟩, -⟩
    have hj : j' < bytes.length := (List.getElem?_eq_some_iff.mp hget).1
    exact wrapRow_ne (by omega) (by omega) (hrow.symm.trans hrow')

/-! ### DRW -/

theorem spriteBit_eq (p : Params) (byte : Byte) (i : Nat) :
    spriteBit p byte i = byte.getLsbD (if p.spriteMsbLeft = true then 7 - i else i) := by
  rw [spriteBit, apply_ite byte.getLsbD]

/-- The bytes DRW reads bring a 1 to exactly the pixels the specification calls lit. -/
theorem rowsLit_readBytes (s : State) (x y n : Nibble) (row : Fin 32) (col : Fin 64) :
    rowsLit s.config (s.getV x).toNat (s.getV y).toNat 0 (s.readBytes s.base n.toNat) row col ↔
      s.spriteLit x y n row col := by
  have hget {j : Nat} (hj : j < n.toNat) : (s.readBytes s.base n.toNat)[j]? = some (s.readByte (s.i.toNat + j)) := by
    rw [List.getElem?_eq_getElem (by rwa [readBytes_length]), readBytes_getElem, State.base]
  constructor
  · rintro ⟨j, byte, hbyte, i, -, hi, ⟨rfl, rfl⟩, hbit⟩
    have hj : j < n.toNat := by
      simpa using (List.getElem?_eq_some_iff.mp hbyte).1
    cases (hget hj).symm.trans hbyte
    exact ⟨j, i, hj, by omega, by rw [wrapRow, Nat.zero_add], rfl, by rwa [← spriteBit_eq]⟩
  · rintro ⟨j, i, hj, hi, hrow, hcol, hbit⟩
    refine ⟨j, _, hget hj, i, by omega, by omega, ⟨Fin.ext ?_, Fin.ext hcol⟩, by rwa [spriteBit_eq]⟩
    rw [hrow, wrapRow, Nat.zero_add]

/-- The sprite DRW draws toggles the lit pixels; its at most 15 rows are fewer than the screen's. -/
theorem drawSprite_toggles (s : State) (x y n : Nibble) :
    Toggles (s.spriteLit x y n) (s.fb, false)
      (drawSprite s.config s.fb (s.getV x).toNat (s.getV y).toNat (s.readBytes s.base n.toNat)) := by
  have hrows : (s.readBytes s.base n.toNat).length ≤ 32 := by
    rw [readBytes_length]
    omega
  exact (drawRows_toggles _ _ _ hrows _).congr (rowsLit_readBytes s x y n)

/-- DRW within memory, or with no row, composes the bytes read. -/
theorem exec_drw_inside {x y n : Nibble} (h : n = 0#4 ∨ s.i.toNat + n.toNat - 1 ≤ 0xFFF) :
    exec (.drw x y n) s =
      .next (s.composed (s.getV x) (s.getV y) (s.readBytes s.base n.toNat)).complete := by
  rcases memRead_cases s .data s.base n.toNat with ⟨-, hread⟩ | ⟨⟨hne, hout⟩, -⟩
  · rw [exec, execDrw, hread, Except.map, conclude_ok]
  · rw [State.base] at hout
    rcases h with rfl | hin
    · exact absurd rfl hne
    · omega

/-- Settles O43: the pixels and the collision bit by `drawSprite_toggles`, the frame by `Frame.composed`. -/
theorem drawTogglesAndDetectsCollision : Obligations.DrawTogglesAndDetectsCollision := by
  intro x y n s hin
  obtain ⟨hpixels, hcollision⟩ := drawSprite_toggles s x y n
  have hflag : ((s.composed (s.getV x) (s.getV y) (s.readBytes s.base n.toNat)).complete).getV 15#4 = flagByte _ :=
    (State.getV_setFlag _ _ _).trans (if_pos rfl)
  refine ⟨_, exec_drw_inside hin, rfl, hpixels, fun hlit => ?hit, fun hnone => ?miss, ?frame⟩
  case hit =>
    rw [hflag, hcollision.mpr (.inr hlit)]
    rfl
  case miss =>
    have hclear := mt hcollision.mp fun hor => hnone (hor.resolve_left Bool.false_ne_true)
    rw [hflag, Bool.eq_false_iff.mpr hclear]
    rfl
  case frame =>
    exact (Frame.composed (readBytes_length s _ _) (.inl rfl) fun row col hp => .inr ⟨row, col, hp, rfl⟩).complete

/-- Settles O44: the first draw leaves I, memory and the parameters, so the second toggles the same pixels. -/
theorem drawingTwiceRestoresTheScreen : Obligations.DrawingTwiceRestoresTheScreen := by
  intro x y n s t hin hexec hx hy
  obtain ⟨t', hexec', -, hfirst, -, -, hF⟩ := drawTogglesAndDetectsCollision x y n s hin
  cases hexec.symm.trans hexec'
  have hi : t.i = s.i := hF.index (by simp)
  have hcells (q : Nat) : t.readByte q = s.readByte q := hF.cells q (by simp)
  obtain ⟨u, hu, -, hsecond, -⟩ := drawTogglesAndDetectsCollision x y n t (by rwa [hi])
  have hsame (row col) : t.spriteLit x y n row col ↔ s.spriteLit x y n row col := by
    simp only [State.spriteLit, hx, hy, hi, hcells, hF.config]
  refine ⟨u, hu, fun row col => ?_⟩
  have htoggle : u.pixel row col ≠ t.pixel row col ↔ t.pixel row col ≠ s.pixel row col := by
    rw [hsecond, hsame, hfirst]
  by_cases hlit : t.pixel row col = s.pixel row col
  · exact (not_not.mp (mt htoggle.mp (not_not.mpr hlit))).trans hlit
  · rw [Bool.eq_not_of_ne (htoggle.mpr hlit), Bool.eq_not_of_ne hlit, Bool.not_not]

end Sys2Proof.Machine
end

section
/-! PROOFS. 45_keypad_timers.md (R220 to R234): the key skips, the wait for a key, the two timers, and ST, which no
instruction reads. -/

namespace Sys2Proof.Machine

variable {W : Part → Prop} {i : Instr} {s t : State} {x : Nibble} {k : Fin 16} {b : Byte}

/-! ### The host's key commands -/

theorem Frame.setKey (h : Frame W s t) (hW : W (.key k)) (v : Bool) : Frame W s (t.setKey k v) :=
  { h with
    keys := fun q hq => by
      have hne : q ≠ k := fun e => hq (e ▸ hW)
      rw [State.isPressed_setKey, if_neg hne, h.keys q hq] }

/-- Settles O52: the written flag is read back, and no other part is written. -/
theorem keyCommandsWriteOneFlag : Obligations.KeyCommandsWriteOneFlag := by
  intro s k
  have hset (v : Bool) : (s.setKey k v).isPressed k = v ∧ Frame (fun p => p = .key k) s (s.setKey k v) :=
    ⟨(State.isPressed_setKey s k k v).trans (if_pos rfl), (Frame.refl (fun p => p = .key k) s).setKey rfl v⟩
  obtain ⟨hpress, hpressFrame⟩ := hset true
  obtain ⟨hrelease, hreleaseFrame⟩ := hset false
  exact ⟨⟨_, rfl, hpress, rfl, hpressFrame⟩, ⟨_, rfl, hrelease, rfl, hreleaseFrame⟩⟩

/-! ### The key query, for a code up to 15 and by KEY_OOR for one above -/

theorem keyQuery_of_code {code : Byte} (s : State) (hk : code.toNat = k.val) :
    keyQuery s code = .ok (s.isPressed k) := by
  have hlt : code.toNat < 16 := by omega
  rw [keyQuery, dif_pos hlt, show (⟨code.toNat, hlt⟩ : Fin 16) = k from Fin.ext hk]

section AboveFifteen

variable {code : Byte} (hcode : 15 < code.toNat)
include hcode

theorem keyQuery_fault (hoor : s.config.keyOor = .fault) :
    keyQuery s code = .error (.address .key code.toNat) := by
  rw [keyQuery, dif_neg (Nat.not_lt.mpr hcode), hoor]

theorem keyQuery_mask (hoor : s.config.keyOor = .mask) (hk : k.val = code.toNat % 16) :
    keyQuery s code = .ok (s.isPressed k) := by
  rw [keyQuery, dif_neg (Nat.not_lt.mpr hcode), hoor, show k = ⟨code.toNat % 16, _⟩ from Fin.ext hk]

theorem keyQuery_notPressed (hoor : s.config.keyOor = .notPressed) : keyQuery s code = .ok false := by
  rw [keyQuery, dif_neg (Nat.not_lt.mpr hcode), hoor]

end AboveFifteen

/-! ### The key skips -/

/-- A query that answers is what both skips test, SKNP the other way round (R223, R224). -/
theorem keySkips_of_keyQuery {held : Bool} (h : keyQuery s (s.getV x) = .ok held) :
    (∃ t, exec (.skp x) s = .next t ∧ t.report = some .done ∧
      t.pc = (if held = true then s.pc + 2#16 else s.pc) ∧ Frame (fun p => p = .pc) s t) ∧
    (∃ t, exec (.sknp x) s = .next t ∧ t.report = some .done ∧
      t.pc = (if held = true then s.pc else s.pc + 2#16) ∧ Frame (fun p => p = .pc) s t) := by
  simp only [exec, execSkp, execSknp, h, Except.map]
  exact ⟨conclude_skipIf s held rfl, conclude_skipIf s (!held) (by cases held <;> rfl)⟩

/-- A query that fails is the error of both skips, which then write nothing (R225, 60_exceptions.md R257). -/
theorem exec_keySkip_of_error {e : TickError} (hi : i = .skp x ∨ i = .sknp x)
    (h : keyQuery s (s.getV x) = .error e) : exec i s = .next (s.raise e) := by
  rcases hi with rfl | rfl <;> simp only [exec, execSkp, execSknp, h, Except.map, conclude_error]

/-- Settles O45: a code up to 15 is queried as it is. -/
theorem keySkipsTestTheHeldKey : Obligations.KeySkipsTestTheHeldKey :=
  fun _ s _ hk => keySkips_of_keyQuery (keyQuery_of_code s hk)

/-- Settles O46: the query of a code above 15 is an error, the query of its low nibble, or false, by KEY_OOR. -/
theorem keyCodeAboveFifteenIsReported : Obligations.KeyCodeAboveFifteenIsReported := by
  intro x s hcode
  constructor
  · intro hfault i hi
    have hraise := exec_keySkip_of_error hi (keyQuery_fault hcode hfault)
    exact ⟨_, hraise, rfl, rfl, (Frame.refl (fun p => p = .mark) s).raise rfl _⟩
  · rintro held (⟨hmask, k, hk, rfl⟩ | ⟨hnone, rfl⟩)
    · exact keySkips_of_keyQuery (keyQuery_mask hcode hmask hk)
    · exact keySkips_of_keyQuery (keyQuery_notPressed hcode hnone)

/-! ### The wait for a key -/

/-- The search from key j over n keys ends at the lowest held key if that key is among them. -/
theorem leastKeyFrom_eq_some (hk : s.isPressed k = true) (hbelow : ∀ q : Fin 16, q < k → s.isPressed q = false)
    {j n : Nat} (hj : j ≤ k.val) (hn : k.val < j + n) : s.leastKeyFrom j n = some k := by
  induction n generalizing j with
  | zero => omega
  | succ n ih =>
    have hlt : j < 16 := by omega
    rw [State.leastKeyFrom, dif_pos hlt]
    rcases Nat.lt_or_eq_of_le hj with hj | rfl
    · rw [hbelow ⟨j, hlt⟩ hj, if_neg Bool.false_ne_true, ih hj (by omega)]
    · exact if_pos hk

theorem leastKeyFrom_eq_none (hnone : ∀ q, s.isPressed q = false) (j n : Nat) : s.leastKeyFrom j n = none := by
  induction n generalizing j with
  | zero => rfl
  | succ n ih => simp only [State.leastKeyFrom, hnone, ih, Bool.false_eq_true, if_false, dite_eq_ite, ite_self]

theorem pollKey_of_held (hk : s.isPressed k = true) (hbelow : ∀ q : Fin 16, q < k → s.isPressed q = false)
    (x : Nibble) : s.pollKey x = s.setV x (BitVec.ofNat 8 k.val) := by
  rw [State.pollKey, State.leastKey, leastKeyFrom_eq_some hk hbelow (Nat.zero_le _) (by omega)]

theorem pollKey_of_none (hnone : ∀ q, s.isPressed q = false) (x : Nibble) :
    s.pollKey x = (s.setPc (s.pc - 2#16)).setWait (.awaitingKey x) := by
  rw [State.pollKey, State.leastKey, leastKeyFrom_eq_none hnone]

/-- Settles O47: the poll finds the lowest held key, whose code fits a byte. -/
theorem waitForKeyTakesTheLowestHeldKey : Obligations.WaitForKeyTakesTheLowestHeldKey := by
  intro x s k hk hbelow
  have hexec : exec (.ldRegKey x) s = .next (s.setV x (BitVec.ofNat 8 k.val)).complete := by
    rw [exec, execLdRegKey, pollKey_of_held hk hbelow, conclude_ok]
  refine ⟨_, hexec, rfl, ?_, setV_complete_frame s x _⟩
  rw [setV_complete_getV, BitVec.toNat_ofNat]
  omega

/-- Settles O48: the poll takes back the two the advance has added to PC, and WAIT is its only other write. -/
theorem holdingTickChangesOnlyWait : Obligations.HoldingTickChangesOnlyWait := by
  intro x s hpc hdecode hnone
  have hback : s.advance.pc - 2#16 = s.pc := BitVec.add_sub_cancel s.pc 2#16
  rw [iTick_of_instr hpc hdecode, exec, execLdRegKey, pollKey_of_none (s := s.advance) hnone, hback, conclude_ok]
  rfl

/-! ### The timers -/

/-- A timer's step is the truncated predecessor. -/
theorem tickDown_toNat (b : Byte) : (tickDown b).toNat = b.toNat - 1 := by
  unfold tickDown
  split
  case isTrue hzero => rw [hzero]; rfl
  case isFalse hne =>
    have hpos : b.toNat ≠ 0 := fun h => hne (BitVec.eq_of_toNat_eq h)
    rw [byte_sub_toNat, BitVec.toNat_ofNat]
    omega

theorem tickDown_iterate_toNat (n : Nat) (b : Byte) : (tickDown^[n] b).toNat = b.toNat - n := by
  induction n generalizing b with
  | zero => rfl
  | succ n ih => rw [Function.iterate_succ_apply, ih, tickDown_toNat]; omega

/-- n TTICKs step each timer n times and do nothing else (R233). -/
theorem performAll_ttick (n : Nat) (s : State) :
    performAll (List.replicate n .ttick) s = .next ((s.setDt (tickDown^[n] s.dt)).setSt (tickDown^[n] s.st)) := by
  induction n generalizing s with
  | zero => rfl
  | succ n ih =>
    rw [List.replicate_succ, performAll]
    exact ih (cmdTtick s)

/-- Settles O51: `performAll_ttick` gives the state, `tickDown_iterate_toNat` the values of its timers. -/
theorem timerTicksSaturateAtZero : Obligations.TimerTicksSaturateAtZero := by
  intro n s
  exact ⟨_, performAll_ttick n s, tickDown_iterate_toNat n s.dt, tickDown_iterate_toNat n s.st, rfl,
    ((Frame.refl _ s).setDt (by simp) _).setSt (by simp) _⟩

/-- A word of family F given as a number, whatever its low byte (30_encoding.md R85 rows 26 to 34). -/
theorem decode_ofNat_of_familyF {kk : Byte} {n : Nat} (hi : encode i = wordXkk 0xF#4 x kk)
    (hn : n = 0xF000 + kk.toNat + 256 * x.toNat) : decode (BitVec.ofNat 16 n) = .instr i :=
  decode_ofNat_of_wordXkk hi (hn.trans (Nat.add_right_comm _ _ _))

/-- Settles O49: the two words are the encodings, and each instruction is one write. -/
theorem delayTimerIsReadAndWritten : Obligations.DelayTimerIsReadAndWritten := by
  intro x
  refine ⟨decode_ofNat_of_familyF (kk := 0x07#8) rfl rfl, decode_ofNat_of_familyF (kk := 0x15#8) rfl rfl,
    fun s => ⟨?read, ?write⟩⟩
  case read => exact ⟨(s.setV x s.dt).complete, rfl, rfl, setV_complete_getV s x s.dt, setV_complete_frame s x _⟩
  case write =>
    have hframe := ((Frame.refl (fun p => p = .delay) s).setDt rfl (s.getV x)).complete
    exact ⟨(s.setDt (s.getV x)).complete, rfl, rfl, rfl, hframe⟩

/-! ### ST is read by no instruction: every operation commutes with a write of ST -/

theorem readBytes_setSt (s : State) (b : Byte) (a n : Nat) : (s.setSt b).readBytes a n = s.readBytes a n := by
  induction n generalizing a with
  | zero => rfl
  | succ n ih => rw [State.readBytes, ih]; rfl

theorem regBlock_setSt (s : State) (b : Byte) (j n : Nat) : (s.setSt b).regBlock j n = s.regBlock j n := by
  induction n generalizing j with
  | zero => rfl
  | succ n ih => rw [State.regBlock, ih]; rfl

theorem setRegBlock_setSt (s : State) (b : Byte) (j : Nat) (bs : List Byte) :
    (s.setSt b).setRegBlock j bs = (s.setRegBlock j bs).setSt b := by
  induction bs generalizing s j with
  | nil => rfl
  | cons c bs ih => exact ih (s.setV (BitVec.ofNat 4 j) c) (j + 1)

theorem leastKeyFrom_setSt (s : State) (b : Byte) (j n : Nat) : (s.setSt b).leastKeyFrom j n = s.leastKeyFrom j n := by
  induction n generalizing j with
  | zero => rfl
  | succ n ih => rw [State.leastKeyFrom, ih]; rfl

theorem pollKey_setSt (s : State) (b : Byte) (x : Nibble) : (s.setSt b).pollKey x = (s.pollKey x).setSt b := by
  rw [State.pollKey, State.leastKey, leastKeyFrom_setSt, State.pollKey, State.leastKey]
  cases s.leastKeyFrom 0 16 <;> rfl

theorem skipIf_setSt (s : State) (b : Byte) (c : Bool) : (s.setSt b).skipIf c = (s.skipIf c).setSt b := by
  cases c <;> rfl

theorem shiftWrites_setSt (s : State) (b : Byte) (x : Nibble) (r : Byte) (g : Bool) :
    (s.setSt b).shiftWrites x r g = (s.shiftWrites x r g).setSt b := by
  unfold State.shiftWrites
  rw [State.setSt_config]
  cases s.config.flagOrder <;> rfl

theorem memRead_setSt (s : State) (b : Byte) (sp : Space) (a n : Nat) :
    memRead (s.setSt b) sp a n = memRead s sp a n := by
  rw [memRead, readBytes_setSt, memRead]

theorem memWrite_setSt (s : State) (b : Byte) (a : Nat) (bs : List Byte) :
    memWrite (s.setSt b) a bs = (memWrite s a bs).map (·.setSt b) := by
  unfold memWrite
  cases accessError .data a bs.length <;> rfl

theorem push_setSt (s : State) (b : Byte) (a : Word) : (s.setSt b).push a = (s.push a).map (·.setSt b) := by
  rcases push_cases s a with ⟨hfree, h16, he⟩ | ⟨hfull, he⟩ <;> rw [he]
  · exact dif_pos hfree
  · exact dif_neg (Nat.not_lt.mpr hfull)

theorem pop_setSt (s : State) (b : Byte) : (s.setSt b).pop = s.pop.map (fun r => (r.1, r.2.setSt b)) := by
  rcases pop_cases s with ⟨hzero, he⟩ | ⟨hpos, h16, he⟩ <;> rw [he]
  · exact dif_pos hzero
  · exact dif_neg (Nat.ne_of_gt hpos)

/-- An instruction's end commutes with a write of ST where its effect does. -/
theorem conclude_setSt {r r' : Except TickError State} (h : conclude s r = .next t) (hr : r' = r.map (·.setSt b)) :
    conclude (s.setSt b) r' = .next (t.setSt b) := by
  subst hr
  rcases conclude_cases h with ⟨u, rfl, rfl⟩ | ⟨e, rfl, rfl⟩ <;> rfl

theorem conclude_ok_setSt (s : State) {u u' : State} (h : conclude s (.ok u) = .next t) (hu : u' = u.setSt b) :
    conclude (s.setSt b) (.ok u') = .next (t.setSt b) :=
  conclude_setSt h (congrArg Except.ok hu)

/-- The same where the effect is computed from an answer, `f` being what the write of ST makes of the answer. -/
theorem conclude_map_setSt {α : Type} {r r' : Except TickError α} {g g' : α → State} (f : α → α)
    (h : conclude s (r.map g) = .next t) (hr : r' = r.map f) (hg : ∀ a, g' (f a) = (g a).setSt b) :
    conclude (s.setSt b) (r'.map g') = .next (t.setSt b) := by
  refine conclude_setSt h ?_
  subst hr
  cases r with
  | ok a => exact congrArg Except.ok (hg a)
  | error e => rfl

/-- The same where the answer does not depend on ST. -/
theorem conclude_map_setSt_same {α : Type} {r r' : Except TickError α} {g g' : α → State}
    (h : conclude s (r.map g) = .next t) (hr : r' = r) (hg : ∀ a, g' a = (g a).setSt b) :
    conclude (s.setSt b) (r'.map g') = .next (t.setSt b) :=
  conclude_map_setSt id h (hr.trans (congrFun Except.map_id r).symm) hg

/-- No instruction but LD ST,Vx writes ST or reads it: its run commutes with a write of ST from outside. -/
theorem exec_setSt (hi : ¬ ∃ x, i = .ldStReg x) (h : exec i s = .next t) (b : Byte) :
    exec i (s.setSt b) = .next (t.setSt b) := by
  cases i with
  | ldStReg x => exact absurd ⟨x, rfl⟩ hi
  | ret => exact conclude_map_setSt _ h (pop_setSt s b) fun r => rfl
  | call => exact conclude_map_setSt _ h (push_setSt s b _) fun u => rfl
  | seImm | sneImm | seReg | sneReg => exact conclude_ok_setSt s h (skipIf_setSt s b _)
  | shrReg | shlReg => exact conclude_ok_setSt s h (shiftWrites_setSt s b _ _ _)
  | ldRegKey x => exact conclude_ok_setSt s h (pollKey_setSt s b x)
  | drw => exact conclude_map_setSt_same h (memRead_setSt s b _ _ _) fun bs => rfl
  | loadRegs => exact conclude_map_setSt_same h (memRead_setSt s b _ _ _) (setRegBlock_setSt s b 0)
  | skp | sknp => exact conclude_map_setSt_same h rfl fun held => skipIf_setSt s b _
  | ldBcd x => exact conclude_setSt h (memWrite_setSt s b _ _)
  | storeRegs x =>
    refine conclude_setSt h ?_
    rw [regBlock_setSt]
    exact memWrite_setSt s b _ _
  | _ => exact conclude_ok_setSt s h rfl

/-- Settles O50: LD ST,Vx is one write, TONE is that ST is not 0, and the second part is `exec_setSt`. -/
theorem soundTimerIsWrittenAndNeverRead : Obligations.SoundTimerIsWrittenAndNeverRead := by
  constructor
  · intro x
    refine ⟨decode_ofNat_of_familyF (kk := 0x18#8) rfl rfl, fun s => ?_⟩
    have hframe := ((Frame.refl (fun p => p = .sound) s).setSt rfl (s.getV x)).complete
    exact ⟨(s.setSt (s.getV x)).complete, rfl, rfl, rfl, bne_iff_ne, hframe⟩
  · exact fun i s t b hi h => exec_setSt hi h b

end Sys2Proof.Machine
end

section
/-! PROOFS. 60_exceptions.md sections 1 and 4 (R250 to R258): what stops a step, the stack errors, and the mark that every
reported error sets and nothing clears. -/

namespace Sys2Proof.Machine

variable {i : Instr} {s t : State}

/-! ### The next command of a step -/

theorem step_eq_perform_nextCommand (s : State) : step s = perform (nextCommand s).1 (nextCommand s).2 := rfl

theorem nextCommand_eq_load_iff {image : List Byte} :
    (nextCommand s).1 = .load image ↔ ∃ rest, s.schedule = .load image :: rest := by
  rw [nextCommand]
  cases s.schedule <;> simp

theorem nextCommand_errorMark (s : State) : (nextCommand s).2.errorMark = s.errorMark := by
  rw [nextCommand]
  cases s.schedule <;> rfl

/-! ### The only refusal -/

/-- LOAD is refused exactly for an image of more than 3584 bytes (70_reset_and_hazards.md R282, decision D16). -/
theorem cmdLoad_eq_refused_iff {image : List Byte} {r : Refusal} :
    cmdLoad image s = .refused r ↔ 3584 < image.length ∧ r = .oversizedLoad image.length := by
  rw [cmdLoad, show Config.maxImage = 3584 from rfl]
  split
  case isTrue hfits => simp [Nat.not_lt.mpr hfits]
  case isFalse hlong => simp [Nat.lt_of_not_le hlong, eq_comm]

/-- LOAD is the one command that can be refused: an ITICK returns a result, and the others answer a state at once. -/
theorem perform_eq_refused_iff {c : Command} {r : Refusal} :
    perform c s = .refused r ↔ ∃ image, c = .load image ∧ 3584 < image.length ∧ r = .oversizedLoad image.length := by
  cases c with
  | load image => simp [perform, cmdLoad_eq_refused_iff]
  | itick =>
    obtain ⟨t, -, ht, -⟩ := everyTickReturnsAResult s
    simp [ht]
  | powerOn | reset | ttick | keyPress | keyRelease => simp [perform]

/-- Settles O12: `Fault` has no value, and of the commands only the oversized LOAD is refused, by
`perform_eq_refused_iff`. -/
theorem onlyAnOversizedLoadStops : Obligations.OnlyAnOversizedLoadStops := by
  intro s
  refine ⟨nofun, fun r => ?_⟩
  rw [step_eq_perform_nextCommand, perform_eq_refused_iff]
  simp only [nextCommand_eq_load_iff, exists_and_right]

/-! ### The stack errors -/

/-- RET with no entry raises, and does not jump (41_flow.md R130, 60_exceptions.md R253). -/
theorem exec_ret_empty (h : s.sp.val = 0) : exec .ret s = .next (s.raise (.stack .underflow)) := by
  rcases pop_cases s with ⟨-, hpop⟩ | ⟨hlive, -⟩
  · rw [exec, execRet, hpop, Except.map, conclude_error]
  · exact absurd h (Nat.ne_of_gt hlive)

/-- Settles O30: both instructions answer the state they began in with the exception raised, by `exec_call_full` and
`exec_ret_empty`. -/
theorem stackErrorsAreReported : Obligations.StackErrorsAreReported := by
  intro s
  have hframe (e : TickError) : Frame (fun p => p = .mark) s (s.raise e) :=
    (Frame.refl (fun p => p = .mark) s).raise rfl e
  exact ⟨fun nnn hfull => ⟨_, exec_call_full nnn hfull, rfl, rfl, hframe _⟩,
    fun hempty => ⟨_, exec_ret_empty hempty, rfl, rfl, hframe _⟩⟩

/-! ### The error mark after an ITICK -/

/-- How an ITICK from `s` to `t` leaves report and mark (60_exceptions.md R258): it reports an error and the mark is set, or
it reports none and the mark is as it was. -/
inductive MarksErrors (s t : State) : Prop where
  | reported (e : TickError) (report : t.report = some (.error e)) (mark : t.errorMark = true)
  | quiet (report : ∀ e : TickError, t.report ≠ some (.error e)) (mark : t.errorMark = s.errorMark)

theorem MarksErrors.raise (s : State) (e : TickError) : MarksErrors s (s.raise e) := .reported e rfl rfl

theorem MarksErrors.complete (h : t.errorMark = s.errorMark) : MarksErrors s t.complete :=
  .quiet nofun h

theorem MarksErrors.of_conclude {r : Except TickError State} (h : conclude s r = .next t)
    (hok : ∀ u, r = .ok u → u.errorMark = s.errorMark) : MarksErrors s t := by
  rcases conclude_cases h with ⟨u, hr, rfl⟩ | ⟨e, -, rfl⟩
  · exact .complete (hok u hr)
  · exact .raise s e

theorem MarksErrors.of_conclude_map {α : Type} {r : Except TickError α} {g : α → State}
    (h : conclude s (r.map g) = .next t) (hok : ∀ a, r = .ok a → (g a).errorMark = s.errorMark) : MarksErrors s t := by
  rcases conclude_map_cases h with ⟨a, hr, rfl⟩ | ⟨e, -, rfl⟩
  · exact .complete (hok a hr)
  · exact .raise s e

theorem pop_errorMark {r : Word × State} (h : s.pop = .ok r) : r.2.errorMark = s.errorMark :=
  (Frame.pop (W := (· ≠ .mark)) h (by simp)).mark (by simp)

theorem push_errorMark {a : Word} (h : s.push a = .ok t) : t.errorMark = s.errorMark :=
  (Frame.push (W := (· ≠ .mark)) h (by simp) (by simp)).mark (by simp)

theorem memWrite_errorMark {a : Nat} {bs : List Byte} (h : memWrite s a bs = .ok t) : t.errorMark = s.errorMark :=
  (Frame.memWrite (W := (· ≠ .mark)) h (by simp)).mark (by simp)

theorem setRegBlock_errorMark (s : State) (k : Nat) (bs : List Byte) :
    (s.setRegBlock k bs).errorMark = s.errorMark := by
  rw [setRegBlock_eq]

/-- The eight instructions that can fail write the mark in failing alone; the frame of every other one keeps it. -/
theorem exec_marksErrors (h : exec i s = .next t) : MarksErrors s t := by
  cases i with
  | ret => exact .of_conclude_map h fun r hr => (State.setPc_errorMark r.2 _).trans (pop_errorMark hr)
  | call => exact .of_conclude_map h fun u hu => (State.setPc_errorMark u _).trans (push_errorMark hu)
  | drw => exact .of_conclude_map h fun bs _ => rfl
  | skp | sknp => exact .of_conclude_map h fun held _ => State.skipIf_errorMark s _
  | ldBcd | storeRegs => exact .of_conclude h fun u hu => memWrite_errorMark hu
  | loadRegs => exact .of_conclude_map h fun bs _ => setRegBlock_errorMark s 0 bs
  | _ =>
    have hmark := (exec_frame h).mark (by simp [mayWrite])
    cases h
    exact .complete hmark

theorem iTick_marksErrors (h : iTick s = .next t) : MarksErrors s t := by
  rcases iTick_cases s with ⟨-, i, -, he⟩ | ⟨-, -, he⟩ | ⟨-, he⟩
  · cases exec_marksErrors (he.symm.trans h) with
    | reported e report mark => exact .reported e report mark
    | quiet report mark => exact .quiet report mark
  · cases he.symm.trans h
    exact .quiet nofun rfl
  · cases he.symm.trans h
    exact .raise s _

/-! ### The error mark after a step -/

/-- The host's other commands keep the mark, POWER_ON and RESET included (log entry 26). -/
theorem perform_errorMark {c : Command} (hc : c ≠ .itick) (h : perform c s = .next t) : t.errorMark = s.errorMark := by
  cases c with
  | itick => exact absurd rfl hc
  | load image => rw [(cmdLoad_eq_next h).2, State.writeBytes_errorMark]
  | powerOn | reset | ttick | keyPress | keyRelease => cases h; rfl

/-- Settles O59: an ITICK leaves report and mark as `MarksErrors` says, and a step that performs any other command keeps the
mark. -/
theorem theErrorMarkIsNeverCleared : Obligations.TheErrorMarkIsNeverCleared := by
  intro s t h
  rw [step_eq_perform_nextCommand] at h
  rw [← nextCommand_errorMark s]
  by_cases hc : (nextCommand s).1 = .itick
  · rw [hc, perform_itick] at h
    cases iTick_marksErrors h with
    | reported e report mark => exact ⟨fun _ => mark, fun _ _ => ⟨e, report⟩, fun _ _ => mark⟩
    | quiet report mark =>
      rw [mark]
      exact ⟨id, fun hclear hset => by simp [hclear] at hset, fun _ ⟨e, he⟩ => absurd he (report e)⟩
  · rw [perform_errorMark hc h]
    exact ⟨id, fun hclear hset => by simp [hclear] at hset, fun htick => absurd htick hc⟩

end Sys2Proof.Machine
end

section
/-! PROOFS. 70_reset_and_hazards.md section 1 (R282): LOAD; the frame of every instruction (files 41 to 45); and the shifts
under every SHIFT_SRC and FLAG_ORDER (42_alu.md section 5). -/

namespace Sys2Proof.Machine

variable {s : State} {x : Nibble}

/-! ### LOAD -/

theorem cmdLoad_of_fits {image : List Byte} (h : image.length ≤ 3584) (s : State) :
    cmdLoad image s = .next (s.writeBytes 0x200 image) := if_pos h

/-- Settles O55: the image is one block of writes, which ends inside memory and is read back by
`readCell_writeCells_inside`; the refusal is `cmdLoad_eq_refused_iff`. -/
theorem loadPlacesTheImage : Obligations.LoadPlacesTheImage := by
  intro s image rest hsched hwf
  have hstep : step s = cmdLoad image { s with schedule := rest } := step_cons hsched
  constructor
  · intro hfits
    refine ⟨_, hstep.trans (cmdLoad_of_fits hfits _), fun k hk => ?image, rfl, ?frame⟩
    case image =>
      have hend : 0x200 + image.length ≤ Config.memSize := Nat.add_le_add_left hfits 0x200
      rw [State.writeBytes_readByte, readCell_writeCells_inside hwf hend hk]
    case frame => exact (Frame.refl _ _).writeBytes fun a ha => ⟨a, ha, rfl⟩
  · exact fun hlong => hstep.trans (cmdLoad_eq_refused_iff.mpr ⟨hlong, rfl⟩)

/-! ### The frame of every instruction -/

/-- Settles O13, by `exec_frame`, which goes through the instructions with one rule per operation. -/
theorem everyInstructionKeepsItsFrame : Obligations.EveryInstructionKeepsItsFrame :=
  fun _ _ _ => exec_frame

/-! ### The shifts -/

theorem shiftSource_eq_shifted (s : State) (x y : Nibble) : shiftSource s x y = s.shifted x y := by
  unfold shiftSource State.shifted
  cases s.config.shiftSrc <;> rfl

theorem byte_shiftRight_one_toNat (b : Byte) : (b >>> 1).toNat = b.toNat / 2 := by
  rw [BitVec.toNat_ushiftRight, Nat.shiftRight_one]

theorem byte_shiftLeft_one_toNat (b : Byte) : (b <<< 1).toNat = 2 * b.toNat % 256 := by
  rw [BitVec.toNat_shiftLeft, Nat.shiftLeft_eq, pow_one, Nat.mul_comm]

/-- The bit the right shift drops is the remainder of the division (42_alu.md R158). -/
theorem flagByte_bitOutRight_toNat (b : Byte) : (flagByte (bitOutRight b)).toNat = b.toNat % 2 := by
  rw [bitOutRight, BitVec.getLsbD, Nat.testBit_zero, flagByte_decide_toNat]
  split <;> omega

/-- The bit the left shift drops is the carry out of the doubling (42_alu.md R160). -/
theorem flagByte_bitOutLeft_toNat (b : Byte) : (flagByte (bitOutLeft b)).toNat = b.toNat / 128 := by
  have hbyte := b.isLt
  rw [bitOutLeft, BitVec.getLsbD, Nat.testBit_eq_decide_div_mod_eq, flagByte_decide_toNat]
  split <;> omega

/-- The result stands in V[x] unless the flag is written over it. -/
theorem shiftWrites_getV_result (h : x ≠ flagReg ∨ s.config.flagOrder = .resultLast) (b : Byte) (g : Bool) :
    (s.shiftWrites x b g).getV x = b := by
  rw [shiftWrites_getV, if_neg, if_pos rfl]
  rintro ⟨hx, hflag⟩
  have hres := h.resolve_left (not_not_intro hx)
  have hlast := hflag.resolve_left (not_not_intro hx)
  cases hres.symm.trans hlast

/-- The flag stands in VF unless the result is written over it. -/
theorem shiftWrites_getV_flag (h : x ≠ flagReg ∨ s.config.flagOrder = .flagLast) (b : Byte) (g : Bool) :
    (s.shiftWrites x b g).getV flagReg = flagByte g := by
  rw [shiftWrites_getV, if_pos ⟨rfl, h⟩]

/-- V[x] and VF after a shift; where x is 15 they are one register, and FLAG_ORDER says which of the two values it keeps
(42_alu.md R162, decision D4). -/
theorem conclude_shiftWrites (s : State) (x : Nibble) {b : Byte} {g : Bool} {result flag : Nat}
    (hresult : b.toNat = result) (hflag : (flagByte g).toNat = flag) :
    ∃ t, conclude s (.ok (s.shiftWrites x b g)) = .next t ∧ t.report = some .done ∧
      (x ≠ 15#4 ∨ s.config.flagOrder = .resultLast → (t.getV x).toNat = result) ∧
      (x ≠ 15#4 ∨ s.config.flagOrder = .flagLast → (t.getV 15#4).toNat = flag) ∧
      Frame (fun p => p ∈ [.reg x, .reg 15#4]) s t := by
  refine ⟨(s.shiftWrites x b g).complete, rfl, rfl, fun h => ?_, fun h => ?_, ?_⟩
  · rw [State.complete_getV, shiftWrites_getV_result h, hresult]
  · rw [State.complete_getV, shiftWrites_getV_flag h, hflag]
  · exact ((Frame.refl _ s).shiftWrites (by simp) (by simp) b g).complete

/-- Settles O21: `conclude_shiftWrites` with half or twice the source and the bit that leaves it. -/
theorem shiftsMoveOneBitOut : Obligations.ShiftsMoveOneBitOut := by
  intro x y s
  rw [← shiftSource_eq_shifted]
  constructor
  · exact conclude_shiftWrites s x (byte_shiftRight_one_toNat _) (flagByte_bitOutRight_toNat _)
  · exact conclude_shiftWrites s x (byte_shiftLeft_one_toNat _) (flagByte_bitOutLeft_toNat _)

end Sys2Proof.Machine
end
